-- ==== Sys2Proof/Word.lean ====
section
/-! DEFINITION. The fixed widths of the SBMP framing engine (spec 00_scope.md R6, R7): wire bytes, 16-bit
lengths and session numbers, 32-bit checksums and CSR values, 64-bit command words. Every value is unsigned. -/

namespace Sys2Proof

/-- A wire byte, a buffer byte, a checksum-kind code, a datagram type or a CSR number (R6). -/
abbrev Byte := BitVec 8

/-- LEN, a session number, a buffer address, a counter of payload bytes (R6). -/
abbrev Half := BitVec 16

/-- A checksum accumulator, a CSR value, the data of a response (R6, R33, R87). -/
abbrev Word := BitVec 32

/-- A command word (R86). -/
abbrev CmdWord := BitVec 64

end Sys2Proof
end

