-- ==== Sys2Proof/Syntax.lean ====
section
/-! DEFINITION. The instructions: one constructor for each row of spec/opcode_table.json (ten command words and four
wire symbols), the checksum kinds, and what the host can present to the block. -/

namespace Sys2Proof

/-- The three checksum kinds of spec 30_encoding.md R82. -/
inductive CksumKind
  | none
  | xor
  | crc32
deriving DecidableEq, Repr

/-- The instructions. A command's operands are the unsigned fields of spec 30_encoding.md R86 and R88, each of
exactly its field's width. A `kind` operand is a byte: an unknown kind is a legal command that the block refuses
(41_frame_tx.md R141). -/
inductive Instr
  /-- `NOP` (44_control.md R200). -/
  | nop
  /-- `RX_BYTE b`: one received byte (40_frame_rx.md R110). -/
  | rxByte (b : Byte)
  /-- `TX_START kind, len` (41_frame_tx.md R140). -/
  | txStart (kind : Byte) (len : Half)
  /-- `TX_BYTE b` (41_frame_tx.md R145). -/
  | txByte (b : Byte)
  /-- `DG_TX_START kind, session, type, body_len` (43_datagram.md R186). -/
  | dgTxStart (kind : Byte) (session : Half) (type : Byte) (bodyLen : Half)
  /-- `DLV_ACK` (44_control.md R201). -/
  | dlvAck
  /-- `FRM_RESET` (44_control.md R202). -/
  | frmReset
  /-- `CSR_READ csr` (44_control.md R203). -/
  | csrRead (csr : Byte)
  /-- `CSR_WRITE csr, value` (44_control.md R204). -/
  | csrWrite (csr : Byte) (value : Word)
  /-- `BUF_READ addr` (44_control.md R208). -/
  | bufRead (addr : Half)
  /-- The wire symbol SOF = 0x01 arriving on the receive line (30_encoding.md R81). -/
  | sof
  /-- The wire symbol CKSUM_KIND NONE = 0x00 arriving on the receive line (30_encoding.md R82). -/
  | cksumKindNone
  /-- The wire symbol CKSUM_KIND XOR = 0x01 arriving on the receive line (30_encoding.md R82). -/
  | cksumKindXor
  /-- The wire symbol CKSUM_KIND CRC32 = 0x20 arriving on the receive line (30_encoding.md R82). -/
  | cksumKindCrc32
deriving DecidableEq, Repr

/-- The two places of the frame layout (30_encoding.md R80) whose byte is a wire symbol of the opcode table: offset
0 holds SOF, offset 1 holds CKSUM_KIND. The byte 0x01 is SOF at the first and XOR at the second, so a wire symbol is
read by its place in the sender's frame. -/
inductive FramePlace
  | offset0
  | offset1
deriving DecidableEq, Repr

/-- What the host presents: a 64-bit command word (R3, R86), or a header byte of a frame that arrives on the receive
line, which reaches the block as `RX_BYTE` (20_memory.md R61). DEDUCED, safe: assumption log 5. -/
inductive HostInput
  | command (w : CmdWord)
  | wireByte (place : FramePlace) (b : Byte)
deriving DecidableEq, Repr

end Sys2Proof
end

