-- ==== Sys2Proof/WellFormed.lean ====
section
/-! DEFINITION. When a command word is well formed: the must-be-zero fields of the six formats of spec 30_encoding.md
R86, by field. Every term of `Instr` is well formed by its types (each operand has exactly its field's width), so the
check is on the fields of a word. `Decode.lean` decides the same by the masks of the opcode table (R89). -/

namespace Sys2Proof

/-- The fields of a command word (R86). The fields default to zero. -/
structure CommandFields where
  op  : Byte := 0
  a8  : Byte := 0
  a16 : Half := 0
  b16 : Half := 0
  b8  : Byte := 0
  rsv : Byte := 0
deriving DecidableEq, Repr

/-- The six formats of R86. -/
inductive Format
  | c0
  | cb
  | cbh
  | ch
  | cdg
  | cwr
deriving DecidableEq, Repr

/-- The format of a defined opcode (R88); none for a reserved one (R90). -/
def Format.ofOpcode (op : Byte) : Option Format :=
  match op.toNat with
  | 0 => some .c0
  | 1 => some .cb
  | 2 => some .cbh
  | 3 => some .cb
  | 4 => some .cdg
  | 5 => some .c0
  | 6 => some .c0
  | 7 => some .cb
  | 8 => some .cwr
  | 9 => some .ch
  | _ => none

/-- The "fields that must be zero" column of R86. -/
def Format.zeroFieldsOk (fmt : Format) (f : CommandFields) : Bool :=
  match fmt with
  | .c0  => f.a8 == 0 && f.a16 == 0 && f.b16 == 0 && f.b8 == 0 && f.rsv == 0
  | .cb  => f.a16 == 0 && f.b16 == 0 && f.b8 == 0 && f.rsv == 0
  | .cbh => f.b16 == 0 && f.b8 == 0 && f.rsv == 0
  | .ch  => f.a8 == 0 && f.b16 == 0 && f.b8 == 0 && f.rsv == 0
  | .cdg => f.rsv == 0
  | .cwr => f.b8 == 0 && f.rsv == 0

/-- A command word's fields are well formed: its opcode is defined and its format's zero fields are zero. -/
def CommandFields.wellFormed (f : CommandFields) : Bool :=
  match Format.ofOpcode f.op with
  | none => false
  | some fmt => fmt.zeroFieldsOk f

end Sys2Proof
end

