-- ==== Sys2Proof/Decode.lean ====
section
/-! DEFINITION. Decoding, total on every word and every byte, and the encoder, both from the encoding tables of spec
30_encoding.md (R82, R86, R88 to R90) and the match and mask columns of spec/opcode_table.json. -/

namespace Sys2Proof

/-- Why the decoder rejects. -/
inductive Rejection
  /-- Opcodes 0x0A to 0xFF (R90). -/
  | reservedOpcode (op : Byte)
  /-- A defined opcode with a 1 in a must-be-zero bit (R89). -/
  | mustBeZero (op : Byte)
  /-- A byte that is no wire symbol of the table at its place. -/
  | noSymbol (b : Byte)
  /-- Fewer than eight bytes of a command word. -/
  | truncated
deriving DecidableEq, Repr

/-- The fields of R86 cut out of a word. -/
def CommandFields.ofWord (w : CmdWord) : CommandFields where
  op  := w.extractLsb' 0 8
  a8  := w.extractLsb' 8 8
  a16 := w.extractLsb' 16 16
  b16 := w.extractLsb' 32 16
  b8  := w.extractLsb' 48 8
  rsv := w.extractLsb' 56 8

/-- The word with these fields (R86). -/
def CommandFields.toWord (f : CommandFields) : CmdWord :=
  f.rsv ++ f.b8 ++ f.b16 ++ f.a16 ++ f.a8 ++ f.op

/-- `W32 = {B16, A16}` (R86). -/
def CommandFields.w32 (f : CommandFields) : Word := f.b16 ++ f.a16

/-- The `CommandFields` whose `W32` is `v`. -/
def CommandFields.withW32 (f : CommandFields) (v : Word) : CommandFields :=
  { f with a16 := v.extractLsb' 0 16, b16 := v.extractLsb' 16 16 }

/-- A command row of spec/opcode_table.json: its match, its mask, and how its operands are taken from the fields
(R88, "Field placement per command"). -/
structure CommandRow where
  matchBits : CmdWord
  mask : CmdWord
  operands : CommandFields → Instr

/-- The ten command rows, by opcode. -/
def commandRow (op : Byte) : Option CommandRow :=
  match op.toNat with
  | 0 => some ⟨0x0000000000000000, 0xFFFFFFFFFFFFFFFF, fun _ => .nop⟩
  | 1 => some ⟨0x0000000000000001, 0xFFFFFFFFFFFF00FF, fun f => .rxByte f.a8⟩
  | 2 => some ⟨0x0000000000000002, 0xFFFFFFFF000000FF, fun f => .txStart f.a8 f.a16⟩
  | 3 => some ⟨0x0000000000000003, 0xFFFFFFFFFFFF00FF, fun f => .txByte f.a8⟩
  | 4 => some ⟨0x0000000000000004, 0xFF000000000000FF, fun f => .dgTxStart f.a8 f.b16 f.b8 f.a16⟩
  | 5 => some ⟨0x0000000000000005, 0xFFFFFFFFFFFFFFFF, fun _ => .dlvAck⟩
  | 6 => some ⟨0x0000000000000006, 0xFFFFFFFFFFFFFFFF, fun _ => .frmReset⟩
  | 7 => some ⟨0x0000000000000007, 0xFFFFFFFFFFFF00FF, fun f => .csrRead f.a8⟩
  | 8 => some ⟨0x0000000000000008, 0xFFFF0000000000FF, fun f => .csrWrite f.a8 f.w32⟩
  | 9 => some ⟨0x0000000000000009, 0xFFFFFFFF0000FFFF, fun f => .bufRead f.a16⟩
  | _ => none

/-- Decoding a command word: the legality checks of `Step` (44_control.md R209, first two lines) and the operands. -/
def decodeWord (w : CmdWord) : Except Rejection Instr :=
  let f := CommandFields.ofWord w
  match commandRow f.op with
  | none => .error (.reservedOpcode f.op)
  | some r => if w &&& r.mask = r.matchBits then .ok (r.operands f) else .error (.mustBeZero f.op)

/-- The wire symbol that a byte is at its place of the frame layout (R80, R81, R82). -/
def decodeSymbol (place : FramePlace) (b : Byte) : Except Rejection Instr :=
  match place, b.toNat with
  | .offset0, 0x01 => .ok .sof
  | .offset1, 0x00 => .ok .cksumKindNone
  | .offset1, 0x01 => .ok .cksumKindXor
  | .offset1, 0x20 => .ok .cksumKindCrc32
  | _, _ => .error (.noSymbol b)

/-- Decoding what the host presents. -/
def decode : HostInput → Except Rejection Instr
  | .command w => decodeWord w
  | .wireByte place b => decodeSymbol place b

/-- A command word as eight bytes, bits 7:0 first (20_memory.md R64). -/
def wordBytes (w : CmdWord) : List Byte :=
  [w.extractLsb' 0 8, w.extractLsb' 8 8, w.extractLsb' 16 8, w.extractLsb' 24 8,
   w.extractLsb' 32 8, w.extractLsb' 40 8, w.extractLsb' 48 8, w.extractLsb' 56 8]

/-- Decoding a command word carried as bytes (20_memory.md R64): the instruction and the bytes after it. -/
def decodeBytes : List Byte → Except Rejection (Instr × List Byte)
  | b0 :: b1 :: b2 :: b3 :: b4 :: b5 :: b6 :: b7 :: rest =>
    match decodeWord (b7 ++ b6 ++ b5 ++ b4 ++ b3 ++ b2 ++ b1 ++ b0) with
    | .ok i => .ok (i, rest)
    | .error e => .error e
  | _ => .error .truncated

/-- The encoder: what the host presents to have the instruction run, a command word by R86 and R88, a wire symbol as
its byte at its place of the frame layout (R80 to R82). -/
def encode : Instr → HostInput
  | .nop => .command (CommandFields.toWord { op := 0x00 })
  | .rxByte b => .command (CommandFields.toWord { op := 0x01, a8 := b })
  | .txStart kind len => .command (CommandFields.toWord { op := 0x02, a8 := kind, a16 := len })
  | .txByte b => .command (CommandFields.toWord { op := 0x03, a8 := b })
  | .dgTxStart kind session type bodyLen =>
    .command (CommandFields.toWord { op := 0x04, a8 := kind, a16 := bodyLen, b16 := session, b8 := type })
  | .dlvAck => .command (CommandFields.toWord { op := 0x05 })
  | .frmReset => .command (CommandFields.toWord { op := 0x06 })
  | .csrRead csr => .command (CommandFields.toWord { op := 0x07, a8 := csr })
  | .csrWrite csr value => .command ((CommandFields.withW32 { op := 0x08, a8 := csr } value).toWord)
  | .bufRead addr => .command (CommandFields.toWord { op := 0x09, a16 := addr })
  | .sof => .wireByte .offset0 0x01
  | .cksumKindNone => .wireByte .offset1 0x00
  | .cksumKindXor => .wireByte .offset1 0x01
  | .cksumKindCrc32 => .wireByte .offset1 0x20

/-- What the host presents for a row of the opcode table whose bits are `w`: an 8-bit row is a wire byte, any other
row a command word. A wire byte 0x01 is presented at offset 0, as SOF; the XOR kind has the same 8 bits at offset 1,
which the table's number alone cannot tell (assumption log 5). -/
def tableInput (nbits w : Nat) : HostInput :=
  if nbits = 8 then
    .wireByte (if w = 0x01 then .offset0 else .offset1) (BitVec.ofNat 8 w)
  else
    .command (BitVec.ofNat 64 w)

/-- The instruction the decoder reads from a row's bits. -/
def decodeTableWord (nbits w : Nat) : Option Instr :=
  match decode (tableInput nbits w) with
  | .ok i => some i
  | .error _ => none

end Sys2Proof
end

