-- ==== Sys2Proof/Config.lean ====
section
/-! DEFINITION. The implementation parameters of spec 00_scope.md R5 and the free values. The parameters are OPEN in
the spec (92_eei_decisions.md D20, D25, D26), so the constants below have no body: no proof can see what they are. -/

namespace Sys2Proof

/-- The parameters of R5, fixed before power-on (R262); no command changes them. They travel in State because the
step takes a state alone, and claims quantify over them there (DESIGN CHOICE, safe: assumption log 1). `PLATFORM_MAP` (R68) is outside the model: the model
sees only the command stream (93_implementation_defined.md I7). -/
structure Params where
  /-- `RX_CAP`, the capacity in bytes of the receive payload buffer, 0 to 65535. -/
  rxCap : Half
  /-- `CRC32_PRESENT`. -/
  crc32Present : Bool
  /-- `HSK_TYPE_SET`: the datagram types that `DG_IS_HSK` classifies. Only membership is ever asked. -/
  hskTypes : List Byte
deriving DecidableEq, Repr

namespace Config

/-- `RX_CAP` of the part (D25, OPEN). -/
opaque rxCap : Half

/-- `CRC32_PRESENT` of the part (D26, OPEN). -/
opaque crc32Present : Bool

/-- `HSK_TYPE_SET` of the part (D20, OPEN). -/
opaque hskTypes : List Byte

/-- The parameters of the part that `State.reset` stands for. -/
def params : Params := ⟨rxCap, crc32Present, hskTypes⟩

/-- FREE VALUE (93_implementation_defined.md I1, "any value"): what a byte of `RXBUF` that nothing has written since
power-on reads as, by its address: the initial-buffer argument of I1. A function of the address, so that a repeated
read gives the same data (R67). DESIGN CHOICE, safe: assumption log 2. -/
opaque unwrittenByte : Nat → Byte

end Config

end Sys2Proof
end

