-- ==== Sys2Proof/Machine/State.lean ====
section
/-! DEFINITION. The state of the SBMP framing engine as plain data (spec 10_state.md, 20_memory.md), the reasons a step
can stop, and the state after power-on reset (70_reset_and_hazards.md R260). -/

namespace Sys2Proof.Machine

/-- `RX_STATE` (R22). The codes 6 and 7 are excluded by type, as R22 allows (93_implementation_defined.md I11).
DEDUCED, safe: assumption log 6. -/
inductive RxState
  | idle
  | cksumType
  | lenLsb
  | lenMsb
  | payload
  | cksumBytes
deriving DecidableEq, Repr

/-- The response status (30_encoding.md R87). -/
inductive Status
  | ok
  | refused
  | busy
  | illegal
deriving DecidableEq, Repr

/-- The response of one command (30_encoding.md R87). -/
structure Response where
  status : Status
  data : Word
deriving DecidableEq, Repr

/-- The event codes that `RX_BYTE` returns (40_frame_rx.md R122). -/
inductive RxEvent
  | accepted
  | delivered
  | dropped
  | ignored
  | discarded
deriving DecidableEq, Repr

/-- The sticky error flags (R31). -/
inductive ErrFlag
  | badKind
  | overflow
  | cksumMismatch
  | dgShort
  | cmdErr
  | txRefused
  | cksumDowngrade
deriving DecidableEq, Repr

/-- The control and status registers (R33). -/
inductive Csr
  | ctrl
  | status
  | err
  | dlvInfo
  | dgHdr
  | dgBody
  | rxProgress
  | rxAcc
  | txProgress
  | txAcc
  | config
deriving DecidableEq, Repr

/-- The receive sequencer (R22 to R27). -/
structure RxSeq where
  /-- `RX_STATE`. -/
  state : RxState := .idle
  /-- `RX_KIND`, by name: no rule writes another value than 0x00, 0x01 or 0x20 (R23). DEDUCED, safe: assumption log
  6. -/
  kind : CksumKind := .none
  /-- `RX_LEN`. -/
  len : Half := 0
  /-- `RX_COUNT`. -/
  count : Half := 0
  /-- `RX_ACC`. -/
  acc : Word := 0
  /-- `CK_COUNT`. -/
  ckCount : BitVec 3 := 0
  /-- `CK_RECV`. -/
  ckRecv : Word := 0
deriving DecidableEq, Repr

/-- The delivery latch (R28). -/
structure DeliveryLatch where
  /-- `DLV_PENDING`. -/
  pending : Bool := false
  /-- `DLV_LEN`. -/
  len : Half := 0
  /-- `DLV_KIND`. -/
  kind : CksumKind := .none
deriving DecidableEq, Repr

/-- The datagram header latch (R29). -/
structure DgLatch where
  /-- `DG_OK`. -/
  ok : Bool := false
  /-- `DG_SESSION`. -/
  session : Half := 0
  /-- `DG_TYPE`. -/
  type : Byte := 0
  /-- `DG_BODY_LEN`. -/
  bodyLen : Half := 0
  /-- `DG_IS_HSK`. -/
  isHsk : Bool := false
deriving DecidableEq, Repr

/-- The transmit sequencer (R32). -/
structure TxSeq where
  /-- `TX_OPEN`. -/
  isOpen : Bool := false
  /-- `TX_KIND`. -/
  kind : CksumKind := .none
  /-- `TX_REMAIN`. -/
  remain : Half := 0
  /-- `TX_ACC`. -/
  acc : Word := 0
deriving DecidableEq, Repr

/-- The machine. The block has no general registers (R20) and no program counter (R21). -/
structure State where
  /-- The parameters of 00_scope.md R5, the arguments of `Step` (44_control.md R209). No step writes them. -/
  params : Params
  /-- The model's own field: what the host has presented and the block has not yet run, first to run first (R3, R21:
  "The host supplies commands in order"). DESIGN CHOICE, safe: assumption log 3. -/
  hostIn : List HostInput
  /-- The responses given since power-on, oldest first: one for each command (30_encoding.md R87). The
  model's own store. DESIGN CHOICE, safe: assumption log 3. -/
  responses : List Response
  /-- The receive sequencer. -/
  rx : RxSeq
  /-- The delivery latch. -/
  dlv : DeliveryLatch
  /-- The datagram header latch. -/
  dg : DgLatch
  /-- `RX_EN` (R30). -/
  rxEn : Bool
  /-- `TX_EN` (R30). -/
  txEn : Bool
  /-- `ERR` (R31), bit i the flag of `ERR` bit i. -/
  err : BitVec 7
  /-- The transmit sequencer. -/
  tx : TxSeq
  /-- `RXBUF` (20_memory.md R60): the bytes written since power-on, addresses strictly rising. An address that is not
  listed has not been written, and reads as the free value `Config.unwrittenByte` of its address. -/
  rxbuf : List Host.Cell
  /-- `TXW` (20_memory.md R61): the bytes emitted since power-on, first byte first. DESIGN CHOICE, safe:
  assumption log 8. -/
  txw : List Byte
deriving DecidableEq, Repr

/-- Why the machine stops with a fault. Both arise only in states that break the invariant `MachineInv` of Safety.lean
(R47 and what its induction needs), which no run from power-on reaches: there a rule's own precondition fails and the spec gives no effect. Safe: the model stops where the
spec says nothing (DEDUCED, assumption log 7). -/
inductive Fault
  /-- `MemRead` or `MemWrite` at an address that `RXBUF` does not have (20_memory.md R60: addresses 0 to RX_CAP-1),
  raised by `RX_BYTE` and the wire symbols. -/
  | noSuchBufferByte (addr : Nat)
  /-- An exact counter result that its field cannot hold (00_scope.md R8): `CK_COUNT + 1` above 7, raised by
  `RX_BYTE` and the wire symbols, or `TX_REMAIN - 1` below 0, raised by `TX_BYTE`. -/
  | counterOutOfRange
deriving DecidableEq, Repr

/-- Why an instruction has no meaning in the model. -/
inductive Refusal
  /-- The instruction of this mnemonic is not modelled; raised by an arm of `exec` alone. Safe: nothing runs. No arm
  raises it: every instruction has its meaning. -/
  | notModelled (mnemonic : String)
deriving DecidableEq, Repr

/-- What a step of this machine answers. -/
abbrev Res := Host.Outcome State Fault Refusal

/-- The state right after power-on reset of a block with parameters `p` (R260 and the table that ends 10_state.md):
every field at its stated value, nothing of `RXBUF` written, `TXW` empty. The host has presented nothing (DESIGN CHOICE for
the model's own fields: assumption log 13). -/
def State.powerOn (p : Params) : State where
  params := p
  hostIn := []
  responses := []
  rx := { state := .idle, kind := .none, len := 0, count := 0, acc := 0, ckCount := 0, ckRecv := 0 }
  dlv := { pending := false, len := 0, kind := .none }
  dg := { ok := false, session := 0, type := 0, bodyLen := 0, isHsk := false }
  rxEn := false
  txEn := false
  err := 0
  tx := { isOpen := false, kind := .none, remain := 0, acc := 0 }
  rxbuf := []
  txw := []

/-- The machine right after reset. -/
def State.reset : State := State.powerOn Config.params

end Sys2Proof.Machine
end

