-- ==== Sys2Proof/Machine/Flags.lean ====
section
/-! DEFINITION. The codes of spec 10_state.md R22, R31, 30_encoding.md R82, R87, 40_frame_rx.md R122, and every flag
computation: raising a sticky flag (00_scope.md R9) and write-1-to-clear (44_control.md R206). -/

namespace Sys2Proof.Machine

/-- The code of `RX_STATE` that `STATUS[2:0]` shows (R22). -/
def RxState.code : RxState → BitVec 3
  | .idle => 0
  | .cksumType => 1
  | .lenLsb => 2
  | .lenMsb => 3
  | .payload => 4
  | .cksumBytes => 5

/-- The 2-bit code of a status (R87). -/
def Status.code : Status → BitVec 2
  | .ok => 0
  | .refused => 1
  | .busy => 2
  | .illegal => 3

/-- The data word of an event (R122). -/
def RxEvent.code : RxEvent → Word
  | .accepted => 0
  | .delivered => 1
  | .dropped => 2
  | .ignored => 3
  | .discarded => 4

/-- The wire byte of a checksum kind (R82), also what the CSRs show of it. -/
def kindCode : CksumKind → Byte
  | .none => 0x00
  | .xor => 0x01
  | .crc32 => 0x20

/-- The bit number of a flag in `ERR` (R31). -/
def ErrFlag.bit : ErrFlag → Nat
  | .badKind => 0
  | .overflow => 1
  | .cksumMismatch => 2
  | .dgShort => 3
  | .cmdErr => 4
  | .txRefused => 5
  | .cksumDowngrade => 6

/-- `ERR` with only this flag set. -/
def ErrFlag.mask (f : ErrFlag) : BitVec 7 := 1#7 <<< f.bit

/-- `raise`: the flag is set, the others stay (R9, R31). -/
def raiseFlag (err : BitVec 7) (f : ErrFlag) : BitVec 7 := err ||| f.mask

/-- `ERR & ~v[6:0]` (R206). -/
def clearFlags (err : BitVec 7) (v : Word) : BitVec 7 := err &&& ~~~(v.extractLsb' 0 7)

end Sys2Proof.Machine
end

