-- ==== Sys2Proof/Machine/Checksum.lean ====
section
/-! DEFINITION. The checksum accumulator (spec 42_checksum.md R160 to R165), used by both directions. -/

namespace Sys2Proof.Machine

/-- `CW(k)`, the trailer width in bytes (R160). -/
def trailerWidth : CksumKind → Nat
  | .none => 0
  | .xor => 1
  | .crc32 => 4

/-- `ACC_INIT(k)` (R161). -/
def accInit : CksumKind → Word
  | .none => 0x00000000
  | .xor => 0x00000000
  | .crc32 => 0xFFFFFFFF

/-- One turn of R163's loop: the polynomial 0xEDB88320, reflected (the spec's G1; DEDUCED, safe: assumption log 11). -/
def crcShift (c : Word) : Word :=
  if c.getLsbD 0 then (c >>> 1) ^^^ 0xEDB88320 else c >>> 1

/-- `n` turns of the loop. -/
def crcShifts : Nat → Word → Word
  | 0, c => c
  | n + 1, c => crcShifts n (crcShift c)

/-- `ACC_UPDATE(k, acc, b)` (R162, R163). -/
def accUpdate (k : CksumKind) (acc : Word) (b : Byte) : Word :=
  match k with
  | .none => acc
  | .xor => acc ^^^ b.setWidth 32
  | .crc32 => crcShifts 8 (acc ^^^ b.setWidth 32)

/-- `ACC_FINAL(k, acc)` (R164). -/
def accFinal (k : CksumKind) (acc : Word) : Word :=
  match k with
  | .none => 0x00000000
  | .xor => (acc.extractLsb' 0 8).setWidth 32
  | .crc32 => acc ^^^ 0xFFFFFFFF

/-- The wire form of the trailer: the `CW(k)` low bytes of the final value, least significant first (R165). -/
def trailerBytes (k : CksumKind) (acc : Word) : List Byte :=
  (List.range (trailerWidth k)).map fun i => (accFinal k acc).extractLsb' (8 * i) 8

end Sys2Proof.Machine
end

