-- ==== Sys2Proof/Machine/Operands.lean ====
section
/-! DEFINITION. What the operands of the commands stand for: checksum-kind bytes on receive (spec 40_frame_rx.md R114)
and on transmit (41_frame_tx.md R140, R141, R143), and CSR numbers (10_state.md R33). -/

namespace Sys2Proof.Machine

/-- The kind that a byte is the code of (R82); none for an unknown one. -/
def kindOfCode (b : Byte) : Option CksumKind :=
  match b.toNat with
  | 0x00 => some .none
  | 0x01 => some .xor
  | 0x20 => some .crc32
  | _ => none

/-- The kind that the receiver accepts the byte as: `KNOWN(b)` of 40_frame_rx.md, where 0x20 needs `CRC32_PRESENT`
(R114). -/
def rxKindOf (p : Params) (b : Byte) : Option CksumKind :=
  match kindOfCode b with
  | some .crc32 => if p.crc32Present then some .crc32 else none
  | k => k

/-- The kind a transmit start uses for its `kind` operand, and whether it was downgraded: CRC32 becomes XOR where it is
not present (R143); none for an unknown kind, which is refused (R141). -/
def txKindOf (p : Params) (b : Byte) : Option (CksumKind × Bool) :=
  match kindOfCode b with
  | some .crc32 => if p.crc32Present then some (.crc32, false) else some (.xor, true)
  | some k => some (k, false)
  | none => none

/-- The register of a CSR number; none for the reserved numbers 0x0B to 0xFF (R33, R45). -/
def csrOfNumber (n : Byte) : Option Csr :=
  match n.toNat with
  | 0x00 => some .ctrl
  | 0x01 => some .status
  | 0x02 => some .err
  | 0x03 => some .dlvInfo
  | 0x04 => some .dgHdr
  | 0x05 => some .dgBody
  | 0x06 => some .rxProgress
  | 0x07 => some .rxAcc
  | 0x08 => some .txProgress
  | 0x09 => some .txAcc
  | 0x0A => some .config
  | _ => none

end Sys2Proof.Machine
end

