-- ==== Sys2Proof/Machine/Ops.lean ====
section
/-! DEFINITION. The primitives of spec 00_scope.md R9 over the state (`MemRead`, `MemWrite`, `Emit`, `Respond`, `raise`),
the receive buffer (20_memory.md R60), and the block's one event: delivery (40_frame_rx.md R126, 60_exceptions.md R240,
the spec's "trap entry") with its datagram parse (43_datagram.md R180), and the return from it (44_control.md R201,
60_exceptions.md R241). The block has no exceptions (60_exceptions.md R230). -/

namespace Sys2Proof.Machine

/-- The written bytes of `RXBUF`. -/
abbrev Memory := List Host.Cell

/-- The canonical form: addresses strictly rising. An unlisted address reads as no value (nothing written), so no entry
can equal it. -/
def Memory.wf : Memory → Bool
  | [] => true
  | [_] => true
  | c :: d :: rest => decide (c.1 < d.1) && Memory.wf (d :: rest)

/-- The byte last written at an address; none where nothing has been written since power-on. -/
def Memory.get : Memory → Nat → Option Byte
  | [], _ => none
  | c :: rest, a => if c.1 = a then some c.2 else Memory.get rest a

/-- Writing one byte, keeping the canonical form. -/
def Memory.set : Memory → Nat → Byte → Memory
  | [], a, v => [(a, v)]
  | c :: rest, a, v =>
    if a < c.1 then (a, v) :: c :: rest
    else if a = c.1 then (a, v) :: rest
    else c :: Memory.set rest a v

/-- What a byte of `RXBUF` holds: the byte last written, or the free value of its address (R60,
93_implementation_defined.md I1). -/
def State.bufByte (s : State) (a : Nat) : Byte :=
  match Memory.get s.rxbuf a with
  | some v => v
  | none => Config.unwrittenByte a

/-- `RXBUF` has the address (R60). -/
def State.hasBufByte (s : State) (a : Nat) : Bool := decide (a < s.params.rxCap.toNat)

/-- `MemRead(a, 1)`. -/
def memRead (s : State) (a : Nat) : Except Fault Byte :=
  if s.hasBufByte a then .ok (s.bufByte a) else .error (.noSuchBufferByte a)

/-- `MemWrite(a, 1, v)`. -/
def memWrite (s : State) (a : Nat) (v : Byte) : Except Fault State :=
  if s.hasBufByte a then .ok { s with rxbuf := Memory.set s.rxbuf a v } else .error (.noSuchBufferByte a)

/-- `Respond(st, d)`. -/
def State.respond (s : State) (st : Status) (d : Word) : State :=
  { s with responses := s.responses ++ [⟨st, d⟩] }

/-- `raise f`. -/
def State.raise (s : State) (f : ErrFlag) : State := { s with err := raiseFlag s.err f }

/-- `Emit` of each byte, in order. -/
def State.emit (s : State) (bs : List Byte) : State := { s with txw := s.txw ++ bs }

/-- `S.RX_STATE <- st`. -/
def State.goto (s : State) (st : RxState) : State := { s with rx := { s.rx with state := st } }

/-- The response of an accepted `RX_BYTE`: `Respond(OK, ev)` (R122). -/
def State.event (s : State) (ev : RxEvent) : State := s.respond .ok ev.code

/-- A rejected frame (40_frame_rx.md R121): the flag, `RX_STATE <- IDLE`, and `EV_DROPPED`. -/
def State.drop (s : State) (f : ErrFlag) : State := ((s.raise f).goto .idle).event .dropped

/-- An illegal word, register or address: `CMD_ERR` and `Respond(ILLEGAL, 0)` (30_encoding.md R89, R90; 44_control.md
R203, R207, R208). -/
def State.illegal (s : State) : State := (s.raise .cmdErr).respond .illegal 0

/-- A refused transmit command: `TX_REFUSED` and `Respond(REFUSED, 0)` (41_frame_tx.md R141, R145). -/
def State.refuseTx (s : State) : State := (s.raise .txRefused).respond .refused 0

/-- `DG_PARSE` (43_datagram.md R180 to R185). -/
def dgParse (s : State) : Except Fault State :=
  if s.dlv.len.toNat < 3 then
    .ok ({ s with dg := { ok := false, session := 0, type := 0, bodyLen := 0, isHsk := false } }.raise .dgShort)
  else do
    let hi ← memRead s 1
    let lo ← memRead s 0
    let type ← memRead s 2
    return { s with dg := { ok := true, session := hi ++ lo, type := type, bodyLen := s.dlv.len - 3,
                            isHsk := s.params.hskTypes.contains type } }

/-- `Deliver` (40_frame_rx.md R126): the latches, the parse, `IDLE`, and `EV_DELIVERED`. The block's event entry
(60_exceptions.md R240). -/
def deliver (s : State) : Res :=
  match dgParse { s with dlv := { pending := true, len := s.rx.len, kind := s.rx.kind } } with
  | .ok t => .next ((t.goto .idle).event .delivered)
  | .error f => .fault f

/-- The return from the event (44_control.md R201, 60_exceptions.md R241). -/
def ackDelivery (s : State) : State :=
  { s with dlv := { s.dlv with pending := false } }.respond .ok ((BitVec.ofBool s.dlv.pending).setWidth 32)

/-- The level output `dlv_irq` (60_exceptions.md R236). -/
def State.dlvIrq (s : State) : Bool := s.dlv.pending

/-- One outcome after another: the second runs on the first's next state. -/
def andThen {α β : Type} (o : Host.Outcome α Fault Refusal) (f : α → Host.Outcome β Fault Refusal) :
    Host.Outcome β Fault Refusal :=
  match o with
  | .next a => f a
  | .fault e => .fault e
  | .refused r => .refused r

end Sys2Proof.Machine
end

