-- ==== Sys2Proof/Machine/Control.lean ====
section
/-! DEFINITION. The control commands (spec 44_control.md R200 to R208), the CSR contents (10_state.md R34 to R44), and the
step of an illegal word (30_encoding.md R89, R90). -/

namespace Sys2Proof.Machine

/-- `NOP` (R200). -/
def execNop (s : State) : Res := .next (s.respond .ok 0)

/-- `DLV_ACK` (R201). -/
def execDlvAck (s : State) : Res := .next (ackDelivery s)

/-- `FRM_RESET` (R202). -/
def execFrmReset (s : State) : Res :=
  .next ({ s with
    rx := { state := .idle, kind := .none, len := 0, count := 0, acc := 0, ckCount := 0, ckRecv := 0 }
    dlv := { s.dlv with pending := false }
    tx := { isOpen := false, kind := .none, remain := 0, acc := 0 } }.respond .ok 0)

/-- `CSRVAL` (10_state.md R34 to R44), the fields written high bits first. -/
def csrValue (s : State) : Csr → Word
  | .ctrl => 0#30 ++ BitVec.ofBool s.txEn ++ BitVec.ofBool s.rxEn
  | .status =>
    0#21 ++ s.rx.ckCount ++ 0#1 ++ BitVec.ofBool s.tx.isOpen ++ BitVec.ofBool s.dg.isHsk ++ BitVec.ofBool s.dg.ok ++
      BitVec.ofBool s.dlv.pending ++ s.rx.state.code
  | .err => 0#25 ++ s.err
  | .dlvInfo => 0#8 ++ kindCode s.dlv.kind ++ s.dlv.len
  | .dgHdr => 0#8 ++ s.dg.type ++ s.dg.session
  | .dgBody => 0#16 ++ s.dg.bodyLen
  | .rxProgress => s.rx.len ++ s.rx.count
  | .rxAcc => s.rx.acc
  | .txProgress => 0#8 ++ kindCode s.tx.kind ++ s.tx.remain
  | .txAcc => s.tx.acc
  | .config => 0#15 ++ BitVec.ofBool s.params.crc32Present ++ s.params.rxCap

/-- `CSR_READ csr` (R203). -/
def execCsrRead (csr : Byte) (s : State) : Res :=
  match csrOfNumber csr with
  | some c => .next (s.respond .ok (csrValue s c))
  | none => .next s.illegal

/-- Writing a register (R204 to R207): `CTRL` takes its two bits, `ERR` clears the flags written 1, every other number
is illegal. -/
def csrWriteValue (s : State) (c : Option Csr) (v : Word) : State :=
  match c with
  | some .ctrl => { s with rxEn := v.getLsbD 0, txEn := v.getLsbD 1 }.respond .ok 0
  | some .err => { s with err := clearFlags s.err v }.respond .ok 0
  | _ => s.illegal

/-- `CSR_WRITE csr, value` (R204). -/
def execCsrWrite (csr : Byte) (value : Word) (s : State) : Res :=
  .next (csrWriteValue s (csrOfNumber csr) value)

/-- `BUF_READ addr` (R208). -/
def execBufRead (addr : Half) (s : State) : Res :=
  .next (if s.hasBufByte addr.toNat then s.respond .ok ((s.bufByte addr.toNat).setWidth 32) else s.illegal)

/-- The step of a command word that is no instruction (30_encoding.md R89, R90). -/
def execIllegal (s : State) : Res := .next s.illegal

end Sys2Proof.Machine
end

