-- ==== Sys2Proof/Machine/Receive.lean ====
section
/-! DEFINITION. Frame receive: `RX_BYTE` and the receive state machine (spec 40_frame_rx.md R110 to R127), and the four
wire symbols of the opcode table, which arrive on the receive line and reach the block as `RX_BYTE` (20_memory.md
R61). -/

namespace Sys2Proof.Machine

/-- State `IDLE` (R113): only SOF starts a frame. -/
def rxIdle (b : Byte) (s : State) : State :=
  if b = 0x01 then
    { s with rx := { s.rx with state := .cksumType, count := 0, ckCount := 0, ckRecv := 0 } }.event .accepted
  else
    s.event .ignored

/-- State `CKSUM_TYPE` (R114). -/
def rxKind (b : Byte) (s : State) : State :=
  match rxKindOf s.params b with
  | some k => { s with rx := { s.rx with kind := k, state := .lenLsb } }.event .accepted
  | none => s.drop .badKind

/-- State `LEN_LSB` (R115). -/
def rxLenLsb (b : Byte) (s : State) : State :=
  { s with rx := { s.rx with len := b.setWidth 16, state := .lenMsb } }.event .accepted

/-- After the last payload byte, or after a zero length (R116, R118): deliver if the kind has no trailer, else collect
the trailer. -/
def afterPayload (s : State) : Res :=
  if trailerWidth s.rx.kind = 0 then deliver s else .next ((s.goto .cksumBytes).event .accepted)

/-- State `LEN_MSB` (R116). -/
def rxLenMsb (b : Byte) (s : State) : Res :=
  let len : Half := b ++ s.rx.len.extractLsb' 0 8
  let t := { s with rx := { s.rx with len := len, acc := accInit s.rx.kind } }
  if len.toNat > 0 then .next ((t.goto .payload).event .accepted) else afterPayload t

/-- State `PAYLOAD` (R117, R118): the overflow test, then the store at `RX_COUNT`. -/
def rxPayload (b : Byte) (s : State) : Res :=
  if s.rx.count = s.params.rxCap then .next (s.drop .overflow)
  else
    match memWrite s s.rx.count.toNat b with
    | .error f => .fault f
    | .ok t =>
      let u := { t with rx := { t.rx with acc := accUpdate t.rx.kind t.rx.acc b, count := t.rx.count + 1 } }
      if u.rx.count = u.rx.len then afterPayload u else .next (u.event .accepted)

/-- State `CKSUM_BYTES` (R119, R120): collect little-endian, then compare once all are there (R166). -/
def rxCksum (b : Byte) (s : State) : Res :=
  let n := s.rx.ckCount.toNat + 1
  if n > 7 then .fault .counterOutOfRange
  else
    let t := { s with rx := { s.rx with
      ckRecv := s.rx.ckRecv ||| (b.setWidth 32 <<< (8 * s.rx.ckCount.toNat)), ckCount := BitVec.ofNat 3 n } }
    if n < trailerWidth t.rx.kind then .next (t.event .accepted)
    else if t.rx.ckRecv = accFinal t.rx.kind t.rx.acc then deliver t
    else .next (t.drop .cksumMismatch)

/-- One received byte, in the order of checks of R237: disabled (R111), pending (R112), then the state's own rule. -/
def receiveByte (b : Byte) (s : State) : Res :=
  if !s.rxEn then .next (s.event .discarded)
  else if s.dlv.pending then .next (s.respond .busy 0)
  else
    match s.rx.state with
    | .idle => .next (rxIdle b s)
    | .cksumType => .next (rxKind b s)
    | .lenLsb => .next (rxLenLsb b s)
    | .lenMsb => rxLenMsb b s
    | .payload => rxPayload b s
    | .cksumBytes => rxCksum b s

/-- `RX_BYTE b` (R110). -/
def execRxByte (b : Byte) (s : State) : Res := receiveByte b s

/-- The wire symbol SOF (30_encoding.md R81). Inside a frame it is data like any other byte (R92). -/
def execSof (s : State) : Res := receiveByte 0x01 s

/-- The wire symbol CKSUM_KIND NONE (30_encoding.md R82). -/
def execCksumKindNone (s : State) : Res := receiveByte 0x00 s

/-- The wire symbol CKSUM_KIND XOR (30_encoding.md R82). -/
def execCksumKindXor (s : State) : Res := receiveByte 0x01 s

/-- The wire symbol CKSUM_KIND CRC32 (30_encoding.md R82). -/
def execCksumKindCrc32 (s : State) : Res := receiveByte 0x20 s

end Sys2Proof.Machine
end

