-- ==== Sys2Proof/Machine/Transmit.lean ====
section
/-! DEFINITION. Frame transmit (spec 41_frame_tx.md R140 to R150) and the datagram transmit header (43_datagram.md R186,
R187). A function that emits gives the state and the number of bytes emitted, as in the spec's pseudocode. -/

namespace Sys2Proof.Machine

/-- `TxTrailer` (R146). -/
def txTrailer (s : State) : State × Nat :=
  (s.emit (trailerBytes s.tx.kind s.tx.acc), trailerWidth s.tx.kind)

/-- `TxHeader(k, len)` (R142, R144). -/
def txHeader (k : CksumKind) (len : Half) (s : State) : State × Nat :=
  let t := s.emit [0x01, kindCode k, len.extractLsb' 0 8, len.extractLsb' 8 8]
  if len = 0 then
    let r := txTrailer { t with tx := { kind := k, acc := accInit k, remain := len, isOpen := false } }
    (r.1, 4 + r.2)
  else
    ({ t with tx := { kind := k, acc := accInit k, remain := len, isOpen := true } }, 4)

/-- `TxBody(b)`, the accepted path of `TX_BYTE` (R145, R186). -/
def txBody (b : Byte) (s : State) : State × Nat :=
  let t := s.emit [b]
  let u := { t with tx := { t.tx with acc := accUpdate t.tx.kind t.tx.acc b, remain := t.tx.remain - 1 } }
  if u.tx.remain = 0 then
    let r := txTrailer { u with tx := { u.tx with isOpen := false } }
    (r.1, 1 + r.2)
  else
    (u, 1)

/-- The kind of an accepted start and whether it is a downgrade; none where the start is refused (R141, R238). -/
def txStartKind (s : State) (kind : Byte) : Option (CksumKind × Bool) :=
  if !s.txEn then none
  else if s.tx.isOpen then none
  else txKindOf s.params kind

/-- `raise CKSUM_DOWNGRADE` where the start is a downgrade (R143). -/
def raiseDowngrade (downgraded : Bool) (s : State) : State :=
  if downgraded then s.raise .cksumDowngrade else s

/-- `TX_START kind, len` (R140). -/
def execTxStart (kind : Byte) (len : Half) (s : State) : Res :=
  match txStartKind s kind with
  | none => .next s.refuseTx
  | some (k, downgraded) =>
    let r := txHeader k len (raiseDowngrade downgraded s)
    .next (r.1.respond .ok (BitVec.ofNat 32 r.2))

/-- `TX_BYTE b` (R145). An open frame with no byte owed is ruled out by R47 item 5 and faults: the exact `TX_REMAIN - 1` does
not fit (R8). -/
def execTxByte (b : Byte) (s : State) : Res :=
  if !s.txEn || !s.tx.isOpen then .next s.refuseTx
  else if s.tx.remain = 0 then .fault .counterOutOfRange
  else
    let r := txBody b s
    .next (r.1.respond .ok (BitVec.ofNat 32 r.2))

/-- `DG_TX_START kind, session, type, body_len` (43_datagram.md R186, R187). -/
def execDgTxStart (kind : Byte) (session : Half) (type : Byte) (bodyLen : Half) (s : State) : Res :=
  if bodyLen.toNat > 0xFFFC then .next s.refuseTx
  else
    match txStartKind s kind with
    | none => .next s.refuseTx
    | some (k, downgraded) =>
      let r := txHeader k (bodyLen + 3) (raiseDowngrade downgraded s)
      let r1 := txBody (session.extractLsb' 0 8) r.1
      let r2 := txBody (session.extractLsb' 8 8) r1.1
      let r3 := txBody type r2.1
      .next (r3.1.respond .ok (BitVec.ofNat 32 (r.2 + r1.2 + r2.2 + r3.2)))

end Sys2Proof.Machine
end

