-- ==== Sys2Proof/Machine/Dispatch.lean ====
section
/-! DEFINITION. The dispatch of spec 44_control.md R209: one arm for each row of spec/opcode_table.json. -/

namespace Sys2Proof.Machine

def exec (i : Instr) (s : State) : Host.Outcome State Fault Refusal :=
  match i with
  | .nop => Sys2Proof.Machine.execNop s
  | .rxByte b => Sys2Proof.Machine.execRxByte b s
  | .txStart kind len => Sys2Proof.Machine.execTxStart kind len s
  | .txByte b => Sys2Proof.Machine.execTxByte b s
  | .dgTxStart kind session type bodyLen => Sys2Proof.Machine.execDgTxStart kind session type bodyLen s
  | .dlvAck => Sys2Proof.Machine.execDlvAck s
  | .frmReset => Sys2Proof.Machine.execFrmReset s
  | .csrRead csr => Sys2Proof.Machine.execCsrRead csr s
  | .csrWrite csr value => Sys2Proof.Machine.execCsrWrite csr value s
  | .bufRead addr => Sys2Proof.Machine.execBufRead addr s
  | .sof => Sys2Proof.Machine.execSof s
  | .cksumKindNone => Sys2Proof.Machine.execCksumKindNone s
  | .cksumKindXor => Sys2Proof.Machine.execCksumKindXor s
  | .cksumKindCrc32 => Sys2Proof.Machine.execCksumKindCrc32 s

end Sys2Proof.Machine
end

