-- ==== Sys2Proof/Machine/Fetch.lean ====
section
/-! DEFINITION. What the host presents, and what runs when the block takes it (spec 44_control.md R209, 20_memory.md R61).
The block itself fetches nothing (10_state.md R21): the host supplies commands in order. -/

namespace Sys2Proof.Machine

/-- What runs when the host presents `x`: its instruction; an illegal word's step (R209, first two lines); a received byte
that is no wire symbol at its place arrives as `RX_BYTE` (20_memory.md R61). -/
def present (x : HostInput) (s : State) : Res :=
  match decode x, x with
  | .ok i, _ => exec i s
  | .error _, .command _ => execIllegal s
  | .error _, .wireByte _ b => execRxByte b s

/-- The next thing the host has presented, taken off; none where it has presented nothing. -/
def takeInput (s : State) : Option (HostInput × State) :=
  match s.hostIn with
  | [] => none
  | x :: rest => some (x, { s with hostIn := rest })

/-- `s` with `x` presented next. -/
def State.presenting (s : State) (x : HostInput) : State := { s with hostIn := x :: s.hostIn }

end Sys2Proof.Machine
end

