-- ==== Sys2Proof/Machine/Step.lean ====
section
/-! DEFINITION. The step (spec 44_control.md R209): it takes the first thing the host has presented, decodes it and runs
it. -/

namespace Sys2Proof.Machine

/-- One step. With nothing presented the state stays as it is: no state advances except as a command step writes it
(10_state.md R21). DEDUCED, safe: assumption log 4. -/
def step (s : State) : Host.Outcome State Fault Refusal :=
  match takeInput s with
  | none => .next s
  | some (x, t) => present x t

/-- `s` with an opcode-table row's bits presented next. -/
def State.withFetchWord (s : State) (nbits w : Nat) : State := s.presenting (tableInput nbits w)

end Sys2Proof.Machine
end

