-- ==== Sys2Proof/Machine/Transport.lean ====
section
/-! DEFINITION. A response and a CSR value carried as bytes by a host transport (spec 20_memory.md R64): little-endian, bits
7:0 first. A command word carried as bytes is `wordBytes` and `decodeBytes` of `Decode.lean`. -/

namespace Sys2Proof.Machine

/-- A 32-bit number, a response's data or a CSR value, as four bytes, bits 7:0 first (R64). -/
def valueBytes (v : Word) : List Byte :=
  [v.extractLsb' 0 8, v.extractLsb' 8 8, v.extractLsb' 16 8, v.extractLsb' 24 8]

/-- The 32-bit number that four bytes carry; none for another count of bytes. -/
def valueOfBytes : List Byte → Option Word
  | [b0, b1, b2, b3] => some (b3 ++ b2 ++ b1 ++ b0)
  | _ => none

/-- The status whose 2-bit code (30_encoding.md R87) a byte carries; none above 3. -/
def statusOfByte (b : Byte) : Option Status :=
  match b.toNat with
  | 0 => some .ok
  | 1 => some .refused
  | 2 => some .busy
  | 3 => some .illegal
  | _ => none

/-- A response as bytes: its status in one byte, its data in four. R64 orders the bytes of a number and not the two numbers of
a response, so they stay a pair. DEDUCED, safe: assumption log 15. -/
def Response.toBytes (r : Response) : Byte × List Byte := (r.status.code.setWidth 8, valueBytes r.data)

/-- The response that the bytes carry. -/
def Response.ofBytes (p : Byte × List Byte) : Option Response :=
  match statusOfByte p.1, valueOfBytes p.2 with
  | some st, some d => some ⟨st, d⟩
  | _, _ => none

end Sys2Proof.Machine
end

