-- ==== Sys2Proof/Machine/Assembler.lean ====
section
/-! DEFINITION. The assembler syntax (spec 30_encoding.md R93) as a printer, and the pseudo-commands (R94): their
expansions, and the host's loops that R94 gives for `RX_STREAM` and `TX_BUFFER`. -/

namespace Sys2Proof.Machine

/-- The mnemonic of the opcode table. -/
def mnemonic : Instr → String
  | .nop => "NOP"
  | .rxByte _ => "RX_BYTE"
  | .txStart _ _ => "TX_START"
  | .txByte _ => "TX_BYTE"
  | .dgTxStart _ _ _ _ => "DG_TX_START"
  | .dlvAck => "DLV_ACK"
  | .frmReset => "FRM_RESET"
  | .csrRead _ => "CSR_READ"
  | .csrWrite _ _ => "CSR_WRITE"
  | .bufRead _ => "BUF_READ"
  | .sof => "SOF"
  | .cksumKindNone => "CKSUM_KIND_NONE"
  | .cksumKindXor => "CKSUM_KIND_XOR"
  | .cksumKindCrc32 => "CKSUM_KIND_CRC32"

/-- A number in hexadecimal (R93); the digits' form is PRESUMED, safe: assumption log 14. -/
def hexText (n : Nat) : String := "0x" ++ String.ofList (Nat.toDigits 16 n)

/-- The operands in the order of R93. -/
def operandTexts : Instr → List String
  | .rxByte b => [hexText b.toNat]
  | .txStart kind len => [hexText kind.toNat, hexText len.toNat]
  | .txByte b => [hexText b.toNat]
  | .dgTxStart kind session type bodyLen =>
    [hexText kind.toNat, hexText session.toNat, hexText type.toNat, hexText bodyLen.toNat]
  | .csrRead csr => [hexText csr.toNat]
  | .csrWrite csr value => [hexText csr.toNat, hexText value.toNat]
  | .bufRead addr => [hexText addr.toNat]
  | .nop => []
  | .dlvAck => []
  | .frmReset => []
  | .sof => []
  | .cksumKindNone => []
  | .cksumKindXor => []
  | .cksumKindCrc32 => []

/-- One line of R93: `MNEMONIC operand, operand, ...`. -/
def asmLine (i : Instr) : String :=
  match operandTexts i with
  | [] => mnemonic i
  | ops => mnemonic i ++ " " ++ String.intercalate ", " ops

/-- The pseudo-commands (R94). -/
inductive Pseudo
  | rxStream (bs : List Byte)
  | txBuffer (p : List Byte)
  | sendFrame (kind : Byte) (p : List Byte)
  | dgSend (kind : Byte) (session : Half) (type : Byte) (body : List Byte)
  | clearErr
  | enable
deriving DecidableEq, Repr

/-- The commands a pseudo-command expands to (R94), before any reaction of the host to `BUSY` or `REFUSED`. A length that
the 16-bit field cannot hold has no expansion (00_scope.md R8; DESIGN CHOICE, safe: assumption log 10). -/
def Pseudo.expand : Pseudo → Option (List Instr)
  | .rxStream bs => some (bs.map .rxByte)
  | .txBuffer p => some (p.map .txByte)
  | .sendFrame kind p =>
    if p.length < 65536 then some (.txStart kind (BitVec.ofNat 16 p.length) :: p.map .txByte) else none
  | .dgSend kind session type body =>
    if body.length < 65536 then some (.dgTxStart kind session type (BitVec.ofNat 16 body.length) :: body.map .txByte)
    else none
  | .clearErr => some [.csrWrite 0x02 0x7F]
  | .enable => some [.csrWrite 0x00 0x3]

/-- A sequence of instructions, one step each. -/
def runInstrs : List Instr → State → Res
  | [], s => .next s
  | i :: rest, s => andThen (exec i s) (runInstrs rest)

/-- The status of the last response. -/
def State.lastStatus (s : State) : Option Status := s.responses.getLast?.map (·.status)

/-- `TX_BUFFER` as the host runs it (R94): it stops at the first response that is not `OK` and returns the number of `OK`
responses. -/
def runTxBuffer : List Byte → State → Host.Outcome (State × Nat) Fault Refusal
  | [], s => .next (s, 0)
  | b :: bs, s =>
    andThen (exec (.txByte b) s) fun t =>
      if t.lastStatus = some .ok then andThen (runTxBuffer bs t) fun r => .next (r.1, r.2 + 1)
      else .next (t, 0)

/-- `RX_STREAM` as the host runs it (R94), for a host that acknowledges at once: a byte answered `BUSY` is presented again
after `DLV_ACK`. -/
def runRxStream : List Byte → State → Res
  | [], s => .next s
  | b :: bs, s =>
    andThen (exec (.rxByte b) s) fun t =>
      if t.lastStatus = some .busy then
        andThen (exec .dlvAck t) fun u => andThen (exec (.rxByte b) u) (runRxStream bs)
      else runRxStream bs t

end Sys2Proof.Machine
end

