-- ==== Sys2Proof/Safety.lean ====
section
/-! DEFINITION. What claims are stated with: the invariants of spec 10_state.md R47, which instructions carry a received
byte, the frame layout of 30_encoding.md R80 as bytes, feeding bytes to the receiver, and the state a delivery leaves,
written out field by field from 40_frame_rx.md R126 and 43_datagram.md R180. -/

namespace Sys2Proof.Machine

/-- The state invariants of R47, in the spec's numbering. Item 4's "accepted kind" is 40_frame_rx.md R114's: CRC32 only
where it is present (the type of `RX_KIND` rules out every unknown kind). -/
structure StateInvariants (s : State) : Prop where
  /-- 1. -/
  count_le_cap : s.rx.count.toNat ≤ s.params.rxCap.toNat
  /-- 2. -/
  payload_count : s.rx.state = .payload → s.rx.count.toNat < s.rx.len.toNat
  /-- 3. -/
  trailer_count : s.rx.state = .cksumBytes →
    s.rx.kind ≠ .none ∧ s.rx.ckCount.toNat < trailerWidth s.rx.kind
  /-- 4. -/
  kind_accepted : s.rx.state = .lenLsb ∨ s.rx.state = .lenMsb ∨ s.rx.state = .payload ∨ s.rx.state = .cksumBytes →
    s.rx.kind = .crc32 → s.params.crc32Present = true
  /-- 5. -/
  tx_open : s.tx.isOpen = true ↔ 0 < s.tx.remain.toNat
  /-- 6. -/
  dg_ok : s.dg.ok = true → 3 ≤ s.dlv.len.toNat ∧ s.dg.bodyLen.toNat = s.dlv.len.toNat - 3
  /-- 7. -/
  pending_idle : s.dlv.pending = true → s.rx.state = .idle

/-- Further facts that the rules keep and that R47's own induction needs. Each is read from the rule named
(DEDUCED, safe: assumption log 9). -/
structure SequencerInvariants (s : State) : Prop where
  /-- R113: the counters are cleared with SOF, and nothing is stored before `PAYLOAD`. -/
  header_count : s.rx.state = .cksumType ∨ s.rx.state = .lenLsb ∨ s.rx.state = .lenMsb → s.rx.count = 0
  /-- R113: no trailer byte is collected before `CKSUM_BYTES`. -/
  no_trailer_yet :
    s.rx.state = .cksumType ∨ s.rx.state = .lenLsb ∨ s.rx.state = .lenMsb ∨ s.rx.state = .payload →
      s.rx.ckCount = 0 ∧ s.rx.ckRecv = 0
  /-- R116, R118: the trailer begins when all LEN bytes are stored. -/
  trailer_len : s.rx.state = .cksumBytes → s.rx.count = s.rx.len
  /-- R27: 0 to 4 trailer bytes. -/
  ck_count_le : s.rx.ckCount.toNat ≤ 4
  /-- R26: a running XOR accumulator keeps bits 31:8 zero. -/
  xor_acc : s.rx.state = .payload ∨ s.rx.state = .cksumBytes → s.rx.kind = .xor → s.rx.acc.toNat < 256
  /-- 20_memory.md R60: the list is in canonical form. -/
  buf_wf : Memory.wf s.rxbuf = true
  /-- 20_memory.md R60: only addresses below `RX_CAP` hold a byte. -/
  buf_in_cap : ∀ a, (Memory.get s.rxbuf a).isSome = true → a < s.params.rxCap.toNat
  /-- R118: the frame's bytes so far have been written. -/
  frame_written : s.rx.state = .payload ∨ s.rx.state = .cksumBytes →
    ∀ a < s.rx.count.toNat, (Memory.get s.rxbuf a).isSome = true
  /-- 43_datagram.md R180: while a delivery is pending, every delivered byte is one that a frame wrote. -/
  delivered_written : s.dlv.pending = true → ∀ a < s.dlv.len.toNat, (Memory.get s.rxbuf a).isSome = true
  /-- R29: with `DG_OK = 0` the other four fields are 0. -/
  dg_short : s.dg.ok = false → s.dg.session = 0 ∧ s.dg.type = 0 ∧ s.dg.bodyLen = 0
  /-- 43_datagram.md R185. -/
  dg_hsk : s.dg.isHsk = (s.dg.ok && s.params.hskTypes.contains s.dg.type)
  /-- 41_frame_tx.md R143: no CRC32 frame is sent where CRC32 is not present. -/
  tx_kind : s.tx.kind = .crc32 → s.params.crc32Present = true
  /-- 42_checksum.md R162, for the transmit accumulator. -/
  tx_xor_acc : s.tx.kind = .xor → s.tx.acc.toNat < 256

/-- The invariant that every step keeps. -/
structure MachineInv (s : State) : Prop where
  state_invariants : StateInvariants s
  sequencer : SequencerInvariants s

/-- The received byte that an instruction carries: `RX_BYTE` and the wire symbols (20_memory.md R61). -/
def lineByte : Instr → Option Byte
  | .rxByte b => some b
  | .sof => some 0x01
  | .cksumKindNone => some 0x00
  | .cksumKindXor => some 0x01
  | .cksumKindCrc32 => some 0x20
  | .nop => none
  | .txStart _ _ => none
  | .txByte _ => none
  | .dgTxStart _ _ _ _ => none
  | .dlvAck => none
  | .frmReset => none
  | .csrRead _ => none
  | .csrWrite _ _ => none
  | .bufRead _ => none

/-- The transmit commands (41_frame_tx.md, 43_datagram.md R186). -/
def isTransmit : Instr → Bool
  | .txStart _ _ => true
  | .txByte _ => true
  | .dgTxStart _ _ _ _ => true
  | .nop => false
  | .rxByte _ => false
  | .dlvAck => false
  | .frmReset => false
  | .csrRead _ => false
  | .csrWrite _ _ => false
  | .bufRead _ => false
  | .sof => false
  | .cksumKindNone => false
  | .cksumKindXor => false
  | .cksumKindCrc32 => false

/-- The mask and match columns of the command rows of spec/opcode_table.json. -/
def opcodeTable : List (CmdWord × CmdWord) :=
  [(0xFFFFFFFFFFFFFFFF, 0x0000000000000000), (0xFFFFFFFFFFFF00FF, 0x0000000000000001),
   (0xFFFFFFFF000000FF, 0x0000000000000002), (0xFFFFFFFFFFFF00FF, 0x0000000000000003),
   (0xFF000000000000FF, 0x0000000000000004), (0xFFFFFFFFFFFFFFFF, 0x0000000000000005),
   (0xFFFFFFFFFFFFFFFF, 0x0000000000000006), (0xFFFFFFFFFFFF00FF, 0x0000000000000007),
   (0xFFFF0000000000FF, 0x0000000000000008), (0xFFFFFFFF0000FFFF, 0x0000000000000009)]

/-- The accumulator after a payload (42_checksum.md R161 to R163, R169). -/
def payloadAcc (k : CksumKind) (p : List Byte) : Word := p.foldl (accUpdate k) (accInit k)

/-- The frame that carries payload `p` under kind `k` (30_encoding.md R80, R83, R84). -/
def frameBytes (k : CksumKind) (p : List Byte) : List Byte :=
  [0x01, kindCode k, (BitVec.ofNat 16 p.length).extractLsb' 0 8, (BitVec.ofNat 16 p.length).extractLsb' 8 8] ++ p ++
    trailerBytes k (payloadAcc k p)

/-- The receiver accepts frames of this kind (40_frame_rx.md R114, `KNOWN`). -/
def acceptsKind (p : Params) (k : CksumKind) : Prop := k = .crc32 → p.crc32Present = true

/-- The starting point of 40_frame_rx.md R125: `IDLE`, enabled, nothing pending. -/
def receiverReady (s : State) : Prop := s.rx.state = .idle ∧ s.rxEn = true ∧ s.dlv.pending = false

/-- Presenting received bytes, one `RX_BYTE` each. -/
def feed (bs : List Byte) (s : State) : Res := runInstrs (bs.map .rxByte) s

/-- The buffer holds `p` from address `a` on, every byte written. -/
def bufHolds (s : State) (a : Nat) (p : List Byte) : Prop :=
  ∀ i, (h : i < p.length) → Memory.get s.rxbuf (a + i) = some p[i]

/-- The state a delivery leaves (R126 with R180 to R185), from the state in which the frame's last byte has been taken
in. -/
def deliveredState (s : State) : State :=
  { s with
    rx := { s.rx with state := .idle }
    dlv := { pending := true, len := s.rx.len, kind := s.rx.kind }
    dg :=
      if s.rx.len.toNat < 3 then { ok := false, session := 0, type := 0, bodyLen := 0, isHsk := false }
      else { ok := true, session := s.bufByte 1 ++ s.bufByte 0, type := s.bufByte 2, bodyLen := s.rx.len - 3,
             isHsk := s.params.hskTypes.contains (s.bufByte 2) }
    err := if s.rx.len.toNat < 3 then s.err ||| 0x08 else s.err
    responses := s.responses ++ [⟨.ok, 1⟩] }

end Sys2Proof.Machine
end

