-- ==== Sys2Proof/Certificates/Slice0/Obligations.lean ====
section
/-! DEFINITION. The statements for the provers. Each docstring names the rule of spec/ that it formalises. A state that
a statement gives for a next state is written out field by field, so it is the result, the frame and the completion of
the instruction in one. `s.responses ++ [⟨st, d⟩]` is the response (st, d) of 30_encoding.md R87. -/

open Sys2Proof Sys2Proof.Machine

/-! ## Encoding -/

/-- Decoding the encoding of any instruction gives it back, every operand at every value (R86, R88, R80 to R82). -/
def Obligations.DecodeOfEncodeIsIdentity : Prop :=
  ∀ i : Instr, decode (encode i) = .ok i

/-- Whatever decodes is the encoding of what it decodes to: each legal word has one meaning, and no bit of it is
dropped (R86, R88, R89). -/
def Obligations.EncodeOfDecodeIsIdentity : Prop :=
  ∀ (x : HostInput) (i : Instr), decode x = .ok i → encode i = x

/-- The masks of the opcode table admit exactly the words whose fields meet the formats of R86. -/
def Obligations.LegalWordsAreTheWellFormedFields : Prop :=
  ∀ w : CmdWord, (∃ i, decodeWord w = .ok i) ↔ (CommandFields.ofWord w).wellFormed = true

/-- R89, R90: a word is legal exactly when it meets the mask and match of a row, and then the step runs its
instruction; a word that meets none only raises `CMD_ERR` and is answered (ILLEGAL, 0). -/
def Obligations.StepOfAnyWord : Prop :=
  ∀ (s : State) (w : CmdWord) (rest : List HostInput), s.hostIn = .command w :: rest →
    ((∃ r ∈ opcodeTable, w &&& r.1 = r.2) →
      ∃ i, encode i = .command w ∧ step s = exec i { s with hostIn := rest }) ∧
    ((¬ ∃ r ∈ opcodeTable, w &&& r.1 = r.2) →
      step s = .next { s with
        hostIn := rest, err := s.err ||| 0x10, responses := s.responses ++ [⟨.illegal, 0⟩] })

/-- Words of 95_test_vectors.md, bit for bit, decode to the commands they stand for, and the wire bytes to their
symbols. -/
def Obligations.SpecWordsDecode : Prop :=
  decodeWord 0x0000000000000000 = .ok .nop ∧
  decodeWord 0x000000000000AA01 = .ok (.rxByte 0xAA) ∧
  decodeWord 0x0000000000030102 = .ok (.txStart 0x01 3) ∧
  decodeWord 0x000000000000CC03 = .ok (.txByte 0xCC) ∧
  decodeWord 0x0020123400022004 = .ok (.dgTxStart 0x20 0x1234 0x20 2) ∧
  decodeWord 0x0000000000000005 = .ok .dlvAck ∧
  decodeWord 0x0000000000000006 = .ok .frmReset ∧
  decodeWord 0x0000000000000A07 = .ok (.csrRead 0x0A) ∧
  decodeWord 0x0000FFFFFFFD0008 = .ok (.csrWrite 0x00 0xFFFFFFFD) ∧
  decodeWord 0x0000000000400009 = .ok (.bufRead 64) ∧
  decodeSymbol .offset0 0x01 = .ok .sof ∧
  decodeSymbol .offset1 0x00 = .ok .cksumKindNone ∧
  decodeSymbol .offset1 0x01 = .ok .cksumKindXor ∧
  decodeSymbol .offset1 0x20 = .ok .cksumKindCrc32

/-- A step takes the first thing presented and runs the instruction it decodes to; a received byte that is no wire symbol
at its place reaches the block as `RX_BYTE` (the model's reading of R61, assumption log 5); with nothing presented a step
changes nothing (the model's reading of R21, assumption log 4). The queue of what is presented is the model's own
(assumption log 3). -/
def Obligations.StepRunsWhatIsPresented : Prop :=
  (∀ (s : State) (x : HostInput) (rest : List HostInput) (i : Instr),
    s.hostIn = x :: rest → decode x = .ok i → step s = exec i { s with hostIn := rest }) ∧
  (∀ (s : State) (place : FramePlace) (b : Byte) (rest : List HostInput) (e : Rejection),
    s.hostIn = .wireByte place b :: rest → decodeSymbol place b = .error e →
      step s = exec (.rxByte b) { s with hostIn := rest }) ∧
  (∀ s : State, s.hostIn = [] → step s = .next s)

/-- A command word carried as bytes, bits 7:0 first, decodes as the word (R64). -/
def Obligations.CommandBytesAreLittleEndian : Prop :=
  ∀ (w : CmdWord) (rest : List Byte),
    decodeBytes (wordBytes w ++ rest) =
      match decodeWord w with
      | .ok i => .ok (i, rest)
      | .error e => .error e

/-! ## Reset -/

/-- R260 with the table that ends 10_state.md: every field after power-on reset, whatever the parameters. No byte of the
buffer has been written: its contents are unspecified. -/
def Obligations.PowerOnResetValues : Prop :=
  State.reset = State.powerOn Config.params ∧
  ∀ (p : Params) (s : State), s = State.powerOn p → s.params = p ∧
    s.rx.state = .idle ∧ kindCode s.rx.kind = 0x00 ∧ s.rx.len = 0 ∧ s.rx.count = 0 ∧ s.rx.acc = 0 ∧
    s.rx.ckCount = 0 ∧ s.rx.ckRecv = 0 ∧
    s.dlv.pending = false ∧ s.dlv.len = 0 ∧ kindCode s.dlv.kind = 0x00 ∧
    s.dg.ok = false ∧ s.dg.session = 0 ∧ s.dg.type = 0 ∧ s.dg.bodyLen = 0 ∧ s.dg.isHsk = false ∧
    s.rxEn = false ∧ s.txEn = false ∧ s.err = 0 ∧
    s.tx.isOpen = false ∧ kindCode s.tx.kind = 0x00 ∧ s.tx.remain = 0 ∧ s.tx.acc = 0 ∧
    (∀ a, Memory.get s.rxbuf a = none) ∧ s.txw = []

/-! ## Receive -/

/-- R111: with `RX_EN = 0` a byte is discarded, before the pending check. -/
def Obligations.RxDisabledDiscardsByte : Prop :=
  ∀ (s : State) (b : Byte), s.rxEn = false →
    exec (.rxByte b) s = .next { s with responses := s.responses ++ [⟨.ok, 4⟩] }

/-- R112: while a delivery is pending a byte is not accepted. -/
def Obligations.RxPendingIsBusy : Prop :=
  ∀ (s : State) (b : Byte), s.rxEn = true → s.dlv.pending = true →
    exec (.rxByte b) s = .next { s with responses := s.responses ++ [⟨.busy, 0⟩] }

/-- R113: state `IDLE`. -/
def Obligations.RxIdleHuntsForSof : Prop :=
  ∀ (s : State) (b : Byte), s.rxEn = true → s.dlv.pending = false → s.rx.state = .idle →
    (b = 0x01 → exec (.rxByte b) s = .next { s with
      rx := { s.rx with state := .cksumType, count := 0, ckCount := 0, ckRecv := 0 }
      responses := s.responses ++ [⟨.ok, 0⟩] }) ∧
    (b ≠ 0x01 → exec (.rxByte b) s = .next { s with responses := s.responses ++ [⟨.ok, 3⟩] })

/-- R114: state `CKSUM_TYPE`. -/
def Obligations.RxKindByteSelectsChecksum : Prop :=
  ∀ (s : State) (b : Byte), s.rxEn = true → s.dlv.pending = false → s.rx.state = .cksumType →
    (∀ k, b = kindCode k → (k = .crc32 → s.params.crc32Present = true) →
      exec (.rxByte b) s = .next { s with
        rx := { s.rx with kind := k, state := .lenLsb }
        responses := s.responses ++ [⟨.ok, 0⟩] }) ∧
    (b ≠ 0x00 ∧ b ≠ 0x01 ∧ (b = 0x20 → s.params.crc32Present = false) →
      exec (.rxByte b) s = .next { s with
        rx := { s.rx with state := .idle }
        err := s.err ||| 0x01
        responses := s.responses ++ [⟨.ok, 2⟩] })

/-- R115, R116: the two length bytes, least significant first; a frame of length 0 goes to its trailer, or is delivered
when it has none. -/
def Obligations.RxLengthBytes : Prop :=
  ∀ (s : State) (b : Byte), s.rxEn = true → s.dlv.pending = false →
    (s.rx.state = .lenLsb →
      exec (.rxByte b) s = .next { s with
        rx := { s.rx with len := b.setWidth 16, state := .lenMsb }
        responses := s.responses ++ [⟨.ok, 0⟩] }) ∧
    (s.rx.state = .lenMsb → ∀ len : Half, len = b ++ s.rx.len.extractLsb' 0 8 →
      (0 < len.toNat → exec (.rxByte b) s = .next { s with
        rx := { s.rx with len := len, acc := accInit s.rx.kind, state := .payload }
        responses := s.responses ++ [⟨.ok, 0⟩] }) ∧
      (len = 0 → s.rx.kind ≠ .none → exec (.rxByte b) s = .next { s with
        rx := { s.rx with len := 0, acc := accInit s.rx.kind, state := .cksumBytes }
        responses := s.responses ++ [⟨.ok, 0⟩] }) ∧
      (len = 0 → s.rx.kind = .none → exec (.rxByte b) s = .next { s with
        rx := { s.rx with len := 0, acc := 0, state := .idle }
        dlv := { pending := true, len := 0, kind := .none }
        dg := { ok := false, session := 0, type := 0, bodyLen := 0, isHsk := false }
        err := s.err ||| 0x08
        responses := s.responses ++ [⟨.ok, 1⟩] }))

/-- R117: a payload byte with the buffer full rejects the frame. -/
def Obligations.RxPayloadOverflowDropsFrame : Prop :=
  ∀ (s : State) (b : Byte), s.rxEn = true → s.dlv.pending = false → s.rx.state = .payload →
    s.rx.count = s.params.rxCap →
      exec (.rxByte b) s = .next { s with
        rx := { s.rx with state := .idle }
        err := s.err ||| 0x02
        responses := s.responses ++ [⟨.ok, 2⟩] }

/-- R118: a payload byte is stored at `RX_COUNT` and folded into the accumulator; the last one goes to the trailer, or
delivers when the kind has none. Every other byte of the buffer reads as before. -/
def Obligations.RxPayloadStoresByte : Prop :=
  ∀ (s u : State) (b : Byte), s.rxEn = true → s.dlv.pending = false → s.rx.state = .payload →
    s.rx.count.toNat < s.params.rxCap.toNat →
    u = { s with
      rxbuf := Memory.set s.rxbuf s.rx.count.toNat b
      rx := { s.rx with acc := accUpdate s.rx.kind s.rx.acc b, count := s.rx.count + 1 } } →
    (s.rx.count + 1 ≠ s.rx.len →
      exec (.rxByte b) s = .next { u with responses := s.responses ++ [⟨.ok, 0⟩] }) ∧
    (s.rx.count + 1 = s.rx.len → s.rx.kind ≠ .none →
      exec (.rxByte b) s = .next { u with
        rx := { u.rx with state := .cksumBytes }
        responses := s.responses ++ [⟨.ok, 0⟩] }) ∧
    (s.rx.count + 1 = s.rx.len → s.rx.kind = .none → exec (.rxByte b) s = .next (deliveredState u)) ∧
    (∀ a, u.bufByte a = if a = s.rx.count.toNat then b else s.bufByte a)

/-- R119, R120: a trailer byte is collected little-endian; when the last one is in, the whole trailer is compared. A
match delivers where the parse stays inside the buffer (in every state that meets `MachineInv`, by `StepIsTotal`). -/
def Obligations.RxTrailerCollectedThenCompared : Prop :=
  ∀ (s u : State) (b : Byte), s.rxEn = true → s.dlv.pending = false → s.rx.state = .cksumBytes →
    s.rx.ckCount.toNat < 7 →
    u = { s with rx := { s.rx with
      ckRecv := s.rx.ckRecv ||| (b.setWidth 32 <<< (8 * s.rx.ckCount.toNat))
      ckCount := BitVec.ofNat 3 (s.rx.ckCount.toNat + 1) } } →
    (s.rx.ckCount.toNat + 1 < trailerWidth s.rx.kind →
      exec (.rxByte b) s = .next { u with responses := s.responses ++ [⟨.ok, 0⟩] }) ∧
    (trailerWidth s.rx.kind ≤ s.rx.ckCount.toNat + 1 →
      (u.rx.ckRecv ≠ accFinal s.rx.kind s.rx.acc →
        exec (.rxByte b) s = .next { u with
          rx := { u.rx with state := .idle }
          err := s.err ||| 0x04
          responses := s.responses ++ [⟨.ok, 2⟩] }) ∧
      (u.rx.ckRecv = accFinal s.rx.kind s.rx.acc → s.rx.len.toNat < 3 ∨ 3 ≤ s.params.rxCap.toNat →
        exec (.rxByte b) s = .next (deliveredState u)))

/-- R126, R180 to R185: what a delivery leaves, for every way it comes about: the latches hold the frame's length and
kind, and the parse takes session, type, body length and handshake class from the buffer, or reports a short payload. -/
def Obligations.DeliveryLatchesAndParse : Prop :=
  ∀ (s t : State) (b : Byte), s.rxEn = true →
    exec (.rxByte b) s = .next t → t.responses = s.responses ++ [⟨.ok, 1⟩] →
    t.rx.state = .idle ∧ t.dlv = { pending := true, len := t.rx.len, kind := t.rx.kind } ∧
    (t.rx.len.toNat < 3 → t.err = s.err ||| 0x08 ∧
      t.dg = { ok := false, session := 0, type := 0, bodyLen := 0, isHsk := false }) ∧
    (3 ≤ t.rx.len.toNat → t.err = s.err ∧ t.dg.ok = true ∧
      t.dg.session = t.bufByte 1 ++ t.bufByte 0 ∧ t.dg.type = t.bufByte 2 ∧
      t.dg.bodyLen.toNat = t.rx.len.toNat - 3 ∧ (t.dg.isHsk = true ↔ t.dg.type ∈ s.params.hskTypes))

/-- R127: zero-length frames of all three kinds are delivered, whatever the capacity, and store nothing. -/
def Obligations.ZeroLengthFramesAreDelivered : Prop :=
  ∀ s : State, receiverReady s →
    (∃ t, feed [0x01, 0x00, 0x00, 0x00] s = .next t ∧
      t.responses = s.responses ++ [⟨.ok, 0⟩, ⟨.ok, 0⟩, ⟨.ok, 0⟩, ⟨.ok, 1⟩] ∧
      t.dlv = { pending := true, len := 0, kind := .none } ∧ t.rxbuf = s.rxbuf) ∧
    (∃ t, feed [0x01, 0x01, 0x00, 0x00, 0x00] s = .next t ∧
      t.responses = s.responses ++ [⟨.ok, 0⟩, ⟨.ok, 0⟩, ⟨.ok, 0⟩, ⟨.ok, 0⟩, ⟨.ok, 1⟩] ∧
      t.dlv = { pending := true, len := 0, kind := .xor } ∧ t.rxbuf = s.rxbuf) ∧
    (s.params.crc32Present = true →
      ∃ t, feed [0x01, 0x20, 0x00, 0x00, 0x00, 0x00, 0x00, 0x00] s = .next t ∧
        t.responses = s.responses ++ List.replicate 7 ⟨.ok, 0⟩ ++ [⟨.ok, 1⟩] ∧
        t.dlv = { pending := true, len := 0, kind := .crc32 } ∧ t.rxbuf = s.rxbuf)

/-- R121, R233: a rejection returns the receiver to `IDLE` and keeps everything else but its flag and, after a wrong
trailer, the collected trailer. -/
def Obligations.RejectionKeepsEverythingElse : Prop :=
  ∀ (s t : State) (b : Byte), exec (.rxByte b) s = .next t → t.responses = s.responses ++ [⟨.ok, 2⟩] →
    t.rx.state = .idle ∧ t.rx.kind = s.rx.kind ∧ t.rx.len = s.rx.len ∧ t.rx.count = s.rx.count ∧ t.rx.acc = s.rx.acc ∧
    (s.rx.state ≠ .cksumBytes → t.rx.ckCount = s.rx.ckCount ∧ t.rx.ckRecv = s.rx.ckRecv) ∧
    t.dlv = s.dlv ∧ t.dlvIrq = s.dlvIrq ∧ t.dg = s.dg ∧ t.rxbuf = s.rxbuf ∧ t.tx = s.tx ∧ t.txw = s.txw ∧
    t.rxEn = s.rxEn ∧ t.txEn = s.txEn ∧ t.params = s.params ∧ t.hostIn = s.hostIn ∧
    ((s.rx.state = .cksumType ∧ t.err = s.err ||| 0x01) ∨ (s.rx.state = .payload ∧ t.err = s.err ||| 0x02) ∨
      (s.rx.state = .cksumBytes ∧ t.err = s.err ||| 0x04))

/-- The wire symbols arrive as `RX_BYTE` of their byte, in every state: the model's reading of the opcode table's
wire-symbol rows, deduced from R61 (assumption log 5). At their places of a frame they start it and select its checksum
(R81, R82, R113, R114): SOF in `IDLE`, a kind in `CKSUM_TYPE`, where CRC32 is unknown without `CRC32_PRESENT`. -/
def Obligations.WireSymbolsFormTheHeader : Prop :=
  (∀ s : State, exec .sof s = exec (.rxByte 0x01) s ∧ exec .cksumKindNone s = exec (.rxByte 0x00) s ∧
    exec .cksumKindXor s = exec (.rxByte 0x01) s ∧ exec .cksumKindCrc32 s = exec (.rxByte 0x20) s) ∧
  ∀ s : State, s.rxEn = true → s.dlv.pending = false →
    (s.rx.state = .idle → exec .sof s = .next { s with
      rx := { s.rx with state := .cksumType, count := 0, ckCount := 0, ckRecv := 0 }
      responses := s.responses ++ [⟨.ok, 0⟩] }) ∧
    (s.rx.state = .cksumType →
      exec .cksumKindNone s = .next { s with
        rx := { s.rx with kind := .none, state := .lenLsb }, responses := s.responses ++ [⟨.ok, 0⟩] } ∧
      exec .cksumKindXor s = .next { s with
        rx := { s.rx with kind := .xor, state := .lenLsb }, responses := s.responses ++ [⟨.ok, 0⟩] } ∧
      (s.params.crc32Present = true → exec .cksumKindCrc32 s = .next { s with
        rx := { s.rx with kind := .crc32, state := .lenLsb }, responses := s.responses ++ [⟨.ok, 0⟩] }) ∧
      (s.params.crc32Present = false → exec .cksumKindCrc32 s = .next { s with
        rx := { s.rx with state := .idle }, err := s.err ||| 0x01, responses := s.responses ++ [⟨.ok, 2⟩] }))

/-- R125, one direction: from `IDLE`, every frame of an accepted kind whose payload fits the buffer is delivered, on its
last byte and on no byte before it, with exactly its payload in the buffer; the transmit side is untouched. -/
def Obligations.ReceiverDeliversEveryValidFrame : Prop :=
  ∀ (s : State) (k : CksumKind) (p : List Byte), receiverReady s → acceptsKind s.params k →
    p.length ≤ s.params.rxCap.toNat →
    ∃ t, feed (frameBytes k p) s = .next t ∧
      t.responses = s.responses ++ List.replicate ((frameBytes k p).length - 1) ⟨.ok, 0⟩ ++ [⟨.ok, 1⟩] ∧
      t.rx.state = .idle ∧ t.dlv = { pending := true, len := BitVec.ofNat 16 p.length, kind := k } ∧
      bufHolds t 0 p ∧ (∀ a, p.length ≤ a → t.bufByte a = s.bufByte a) ∧
      t.err = (if p.length < 3 then s.err ||| 0x08 else s.err) ∧
      t.tx = s.tx ∧ t.txw = s.txw ∧ t.rxEn = s.rxEn ∧ t.txEn = s.txEn ∧ t.params = s.params

/-- R125, the other direction: bytes presented from `IDLE` whose last one is the first to deliver end in a frame that
began in `IDLE`, of an accepted kind, that fits the buffer and carries its matching checksum; and what is delivered is
its payload. -/
def Obligations.ReceiverDeliversOnlyValidFrames : Prop :=
  ∀ (s t : State) (bs : List Byte) (evs : List Response), receiverReady s → feed bs s = .next t →
    t.responses = s.responses ++ evs ++ [⟨.ok, 1⟩] → (∀ r ∈ evs, r ≠ ⟨.ok, 1⟩) →
    ∃ (pre : List Byte) (k : CksumKind) (p : List Byte) (u : State),
      bs = pre ++ frameBytes k p ∧ feed pre s = .next u ∧ u.rx.state = .idle ∧
      acceptsKind s.params k ∧ p.length ≤ s.params.rxCap.toNat ∧
      t.dlv = { pending := true, len := BitVec.ofNat 16 p.length, kind := k } ∧ bufHolds t 0 p

/-! ## Transmit -/

/-- R140, R142, R144: an accepted start emits the header and primes the accumulator; an empty frame is complete with its
trailer. -/
def Obligations.TxStartEmitsHeader : Prop :=
  ∀ (s : State) (k : CksumKind) (len : Half), s.txEn = true → s.tx.isOpen = false →
    (k = .crc32 → s.params.crc32Present = true) →
    (len ≠ 0 → exec (.txStart (kindCode k) len) s = .next { s with
      tx := { isOpen := true, kind := k, remain := len, acc := accInit k }
      txw := s.txw ++ [0x01, kindCode k, len.extractLsb' 0 8, len.extractLsb' 8 8]
      responses := s.responses ++ [⟨.ok, 4⟩] }) ∧
    (len = 0 → k = .none → exec (.txStart (kindCode k) len) s = .next { s with
      tx := { isOpen := false, kind := .none, remain := 0, acc := 0x00000000 }
      txw := s.txw ++ [0x01, 0x00, 0x00, 0x00]
      responses := s.responses ++ [⟨.ok, 4⟩] }) ∧
    (len = 0 → k = .xor → exec (.txStart (kindCode k) len) s = .next { s with
      tx := { isOpen := false, kind := .xor, remain := 0, acc := 0x00000000 }
      txw := s.txw ++ [0x01, 0x01, 0x00, 0x00, 0x00]
      responses := s.responses ++ [⟨.ok, 5⟩] }) ∧
    (len = 0 → k = .crc32 → exec (.txStart (kindCode k) len) s = .next { s with
      tx := { isOpen := false, kind := .crc32, remain := 0, acc := 0xFFFFFFFF }
      txw := s.txw ++ [0x01, 0x20, 0x00, 0x00, 0x00, 0x00, 0x00, 0x00]
      responses := s.responses ++ [⟨.ok, 8⟩] })

/-- R141: a start is refused when transmit is disabled, a frame is open, or the kind is unknown; nothing is emitted. -/
def Obligations.TxStartRefused : Prop :=
  ∀ (s : State) (kind : Byte) (len : Half),
    s.txEn = false ∨ s.tx.isOpen = true ∨ (kind ≠ 0x00 ∧ kind ≠ 0x01 ∧ kind ≠ 0x20) →
    exec (.txStart kind len) s =
      .next { s with err := s.err ||| 0x20, responses := s.responses ++ [⟨.refused, 0⟩] }

/-- R143: without `CRC32_PRESENT` a CRC32 start goes ahead as XOR and raises `CKSUM_DOWNGRADE`. -/
def Obligations.TxStartDowngradesCrc32 : Prop :=
  ∀ (s : State) (len : Half), s.txEn = true → s.tx.isOpen = false → s.params.crc32Present = false →
    (len ≠ 0 → exec (.txStart 0x20 len) s = .next { s with
      tx := { isOpen := true, kind := .xor, remain := len, acc := 0 }
      txw := s.txw ++ [0x01, 0x01, len.extractLsb' 0 8, len.extractLsb' 8 8]
      err := s.err ||| 0x40
      responses := s.responses ++ [⟨.ok, 4⟩] }) ∧
    (len = 0 → exec (.txStart 0x20 len) s = .next { s with
      tx := { isOpen := false, kind := .xor, remain := 0, acc := 0 }
      txw := s.txw ++ [0x01, 0x01, 0x00, 0x00, 0x00]
      err := s.err ||| 0x40
      responses := s.responses ++ [⟨.ok, 5⟩] })

/-- R145, R146: a body byte is emitted and folded into the accumulator; the last one closes the frame and emits the
trailer with it; without an open frame or with transmit disabled it is refused. -/
def Obligations.TxByteEmitsBody : Prop :=
  ∀ (s : State) (b : Byte) (acc : Word), acc = accUpdate s.tx.kind s.tx.acc b →
    (s.txEn = false ∨ s.tx.isOpen = false → exec (.txByte b) s =
      .next { s with err := s.err ||| 0x20, responses := s.responses ++ [⟨.refused, 0⟩] }) ∧
    (s.txEn = true → s.tx.isOpen = true → 1 < s.tx.remain.toNat → exec (.txByte b) s = .next { s with
      tx := { s.tx with remain := s.tx.remain - 1, acc := acc }
      txw := s.txw ++ [b]
      responses := s.responses ++ [⟨.ok, 1⟩] }) ∧
    (s.txEn = true → s.tx.isOpen = true → s.tx.remain = 1 → exec (.txByte b) s = .next { s with
      tx := { s.tx with isOpen := false, remain := 0, acc := acc }
      txw := s.txw ++ b :: (match s.tx.kind with
        | .none => []
        | .xor => [acc.extractLsb' 0 8]
        | .crc32 => [(acc ^^^ 0xFFFFFFFF).extractLsb' 0 8, (acc ^^^ 0xFFFFFFFF).extractLsb' 8 8,
            (acc ^^^ 0xFFFFFFFF).extractLsb' 16 8, (acc ^^^ 0xFFFFFFFF).extractLsb' 24 8])
      responses := s.responses ++ [⟨.ok, match s.tx.kind with | .none => 1 | .xor => 2 | .crc32 => 5⟩] })

/-- R186: an accepted datagram start emits the frame header for `body_len + 3` and the three header bytes, which the
checksum covers; an empty body completes the frame. -/
def Obligations.DgTxStartEmitsFrameAndDatagramHeader : Prop :=
  ∀ (s : State) (kind type : Byte) (session bodyLen len : Half) (k : CksumKind) (acc : Word) (err : BitVec 7),
    s.txEn = true → s.tx.isOpen = false → bodyLen.toNat ≤ 0xFFFC → len = bodyLen + 3 →
    (kind = kindCode k ∧ (k = .crc32 → s.params.crc32Present = true) ∧ err = s.err) ∨
      (kind = 0x20 ∧ s.params.crc32Present = false ∧ k = .xor ∧ err = s.err ||| 0x40) →
    acc = payloadAcc k [session.extractLsb' 0 8, session.extractLsb' 8 8, type] →
    (bodyLen ≠ 0 → exec (.dgTxStart kind session type bodyLen) s = .next { s with
      tx := { isOpen := true, kind := k, remain := bodyLen, acc := acc }
      txw := s.txw ++ [0x01, kindCode k, len.extractLsb' 0 8, len.extractLsb' 8 8,
        session.extractLsb' 0 8, session.extractLsb' 8 8, type]
      err := err
      responses := s.responses ++ [⟨.ok, 7⟩] }) ∧
    (bodyLen = 0 → exec (.dgTxStart kind session type bodyLen) s = .next { s with
      tx := { isOpen := false, kind := k, remain := 0, acc := acc }
      txw := s.txw ++ [0x01, kindCode k, 0x03, 0x00, session.extractLsb' 0 8, session.extractLsb' 8 8, type] ++
        trailerBytes k acc
      err := err
      responses := s.responses ++ [⟨.ok, BitVec.ofNat 32 (7 + trailerWidth k)⟩] })

/-- R186, R187: a datagram start is refused when `3 + body_len` does not fit LEN and in the cases of `TX_START`; nothing
is emitted. -/
def Obligations.DgTxStartRefused : Prop :=
  ∀ (s : State) (kind type : Byte) (session bodyLen : Half),
    0xFFFC < bodyLen.toNat ∨ s.txEn = false ∨ s.tx.isOpen = true ∨ (kind ≠ 0x00 ∧ kind ≠ 0x01 ∧ kind ≠ 0x20) →
    exec (.dgTxStart kind session type bodyLen) s =
      .next { s with err := s.err ||| 0x20, responses := s.responses ++ [⟨.refused, 0⟩] }

/-- The pseudo-command `SEND_FRAME` (R94) puts exactly the frame of R80 on the wire and closes it. -/
def Obligations.SendFrameEmitsTheFrame : Prop :=
  ∀ (s : State) (kind : Byte) (k : CksumKind) (downgraded : Bool) (p : List Byte) (is : List Instr),
    s.txEn = true → s.tx.isOpen = false → txKindOf s.params kind = some (k, downgraded) →
    (Pseudo.sendFrame kind p).expand = some is →
    ∃ t, runInstrs is s = .next t ∧ t.txw = s.txw ++ frameBytes k p ∧ t.tx.isOpen = false ∧
      t.tx.acc = payloadAcc k p

/-- R149: the bytes that `TX_START` and its accepted `TX_BYTE`s emit, fed to a receiver that is ready and large enough,
are delivered exactly once, on the last byte, with the emitted kind and the payload that was sent. -/
def Obligations.FrameRoundTrip : Prop :=
  ∀ (s r : State) (kind : Byte) (k : CksumKind) (downgraded : Bool) (p : List Byte),
    s.txEn = true → s.tx.isOpen = false → txKindOf s.params kind = some (k, downgraded) → p.length < 65536 →
    receiverReady r → p.length ≤ r.params.rxCap.toNat → acceptsKind r.params k →
    ∃ (s' : State) (bs : List Byte) (r' : State),
      runInstrs (.txStart kind (BitVec.ofNat 16 p.length) :: p.map .txByte) s = .next s' ∧
      s'.txw = s.txw ++ bs ∧ feed bs r = .next r' ∧
      r'.responses = r.responses ++ List.replicate (bs.length - 1) ⟨.ok, 0⟩ ++ [⟨.ok, 1⟩] ∧
      r'.dlv = { pending := true, len := BitVec.ofNat 16 p.length, kind := k } ∧ bufHolds r' 0 p

/-- The datagram round trip of 95_test_vectors.md L1.3 (R149 with R182 to R186): what `DG_SEND` emits, fed to a ready
receiver of matching capacity, parses to the session, type and body that were sent. -/
def Obligations.DatagramRoundTrip : Prop :=
  ∀ (s r : State) (kind type : Byte) (session : Half) (k : CksumKind) (downgraded : Bool) (body : List Byte),
    s.txEn = true → s.tx.isOpen = false → txKindOf s.params kind = some (k, downgraded) → body.length ≤ 0xFFFC →
    receiverReady r → body.length + 3 ≤ r.params.rxCap.toNat → acceptsKind r.params k →
    ∃ (s' : State) (bs : List Byte) (r' : State),
      runInstrs (.dgTxStart kind session type (BitVec.ofNat 16 body.length) :: body.map .txByte) s = .next s' ∧
      s'.txw = s.txw ++ bs ∧ feed bs r = .next r' ∧ r'.dlv.pending = true ∧
      r'.dg = { ok := true, session := session, type := type, bodyLen := BitVec.ofNat 16 body.length,
                isHsk := r.params.hskTypes.contains type } ∧
      bufHolds r' 3 body

/-! ## Checksum -/

/-- R168: the reference values. -/
def Obligations.ChecksumReferenceValues : Prop :=
  payloadAcc .crc32 [] = 0xFFFFFFFF ∧ accFinal .crc32 0xFFFFFFFF = 0x00000000 ∧
  payloadAcc .crc32 [0x00] = 0x2DFD1072 ∧ accFinal .crc32 0x2DFD1072 = 0xD202EF8D ∧
  payloadAcc .crc32 [0xFF] = 0x00FFFFFF ∧ accFinal .crc32 0x00FFFFFF = 0xFF000000 ∧
  payloadAcc .crc32 [0xAA, 0xBB, 0xCC] = 0x41B207B3 ∧ accFinal .crc32 0x41B207B3 = 0xBE4DF84C ∧
  payloadAcc .crc32 [0x31, 0x32, 0x33, 0x34, 0x35, 0x36, 0x37, 0x38, 0x39] = 0x340BC6D9 ∧
  accFinal .crc32 0x340BC6D9 = 0xCBF43926 ∧
  trailerBytes .crc32 0xFFFFFFFF = [0x00, 0x00, 0x00, 0x00] ∧
  trailerBytes .crc32 0x2DFD1072 = [0x8D, 0xEF, 0x02, 0xD2] ∧
  trailerBytes .crc32 0x00FFFFFF = [0x00, 0x00, 0x00, 0xFF] ∧
  trailerBytes .crc32 0x41B207B3 = [0x4C, 0xF8, 0x4D, 0xBE] ∧
  trailerBytes .crc32 0x340BC6D9 = [0x26, 0x39, 0xF4, 0xCB] ∧
  accFinal .xor (payloadAcc .xor [0xAA, 0xBB, 0xCC]) = 0xDD ∧ accFinal .xor (payloadAcc .xor []) = 0x00

/-- The update of R163 as the table-driven form it allows: the byte-wise update with the table entry of the low byte. -/
def Obligations.CrcUpdateIsTableDriven : Prop :=
  ∀ (acc : Word) (b : Byte),
    accUpdate .crc32 acc b =
      (acc >>> 8) ^^^ crcShifts 8 (((acc.extractLsb' 0 8) ^^^ b).setWidth 32)

/-! ## Control -/

/-- R200: `NOP` does nothing. -/
def Obligations.NopDoesNothing : Prop :=
  ∀ s : State, exec .nop s = .next { s with responses := s.responses ++ [⟨.ok, 0⟩] }

/-- R201: `DLV_ACK` clears `DLV_PENDING`, answers with what it was, and keeps the latches and the buffer. -/
def Obligations.DlvAckReleasesDelivery : Prop :=
  ∀ s : State,
    (s.dlv.pending = true → exec .dlvAck s = .next { s with
      dlv := { s.dlv with pending := false }, responses := s.responses ++ [⟨.ok, 1⟩] }) ∧
    (s.dlv.pending = false → exec .dlvAck s = .next { s with responses := s.responses ++ [⟨.ok, 0⟩] })

/-- R202, R261: `FRM_RESET` clears both sequencers and `DLV_PENDING` and keeps everything else. -/
def Obligations.FrmResetClearsSequencers : Prop :=
  ∀ s : State, exec .frmReset s = .next { s with
    rx := { state := .idle, kind := .none, len := 0, count := 0, acc := 0, ckCount := 0, ckRecv := 0 }
    dlv := { s.dlv with pending := false }
    tx := { isOpen := false, kind := .none, remain := 0, acc := 0 }
    responses := s.responses ++ [⟨.ok, 0⟩] }

/-- R34 to R44: every register reads its fields at their bits and zero elsewhere, and changes nothing; after power-on
every register but `CONFIG` reads 0. -/
def Obligations.CsrReadShowsFields : Prop :=
  ∀ s : State, ∃ ctrl status err dlvInfo dgHdr dgBody rxProgress txProgress config : Word,
    exec (.csrRead 0x00) s = .next { s with responses := s.responses ++ [⟨.ok, ctrl⟩] } ∧
    ctrl.getLsbD 0 = s.rxEn ∧ ctrl.getLsbD 1 = s.txEn ∧ ctrl.extractLsb' 2 30 = 0 ∧
    exec (.csrRead 0x01) s = .next { s with responses := s.responses ++ [⟨.ok, status⟩] } ∧
    status.extractLsb' 0 3 = s.rx.state.code ∧ status.getLsbD 3 = s.dlv.pending ∧ status.getLsbD 4 = s.dg.ok ∧
    status.getLsbD 5 = s.dg.isHsk ∧ status.getLsbD 6 = s.tx.isOpen ∧ status.getLsbD 7 = false ∧
    status.extractLsb' 8 3 = s.rx.ckCount ∧ status.extractLsb' 11 21 = 0 ∧
    exec (.csrRead 0x02) s = .next { s with responses := s.responses ++ [⟨.ok, err⟩] } ∧
    err.extractLsb' 0 7 = s.err ∧ err.extractLsb' 7 25 = 0 ∧
    exec (.csrRead 0x03) s = .next { s with responses := s.responses ++ [⟨.ok, dlvInfo⟩] } ∧
    dlvInfo.extractLsb' 0 16 = s.dlv.len ∧ dlvInfo.extractLsb' 16 8 = kindCode s.dlv.kind ∧
    dlvInfo.extractLsb' 24 8 = 0 ∧
    exec (.csrRead 0x04) s = .next { s with responses := s.responses ++ [⟨.ok, dgHdr⟩] } ∧
    dgHdr.extractLsb' 0 16 = s.dg.session ∧ dgHdr.extractLsb' 16 8 = s.dg.type ∧ dgHdr.extractLsb' 24 8 = 0 ∧
    exec (.csrRead 0x05) s = .next { s with responses := s.responses ++ [⟨.ok, dgBody⟩] } ∧
    dgBody.extractLsb' 0 16 = s.dg.bodyLen ∧ dgBody.extractLsb' 16 16 = 0 ∧
    exec (.csrRead 0x06) s = .next { s with responses := s.responses ++ [⟨.ok, rxProgress⟩] } ∧
    rxProgress.extractLsb' 0 16 = s.rx.count ∧ rxProgress.extractLsb' 16 16 = s.rx.len ∧
    exec (.csrRead 0x07) s = .next { s with responses := s.responses ++ [⟨.ok, s.rx.acc⟩] } ∧
    exec (.csrRead 0x08) s = .next { s with responses := s.responses ++ [⟨.ok, txProgress⟩] } ∧
    txProgress.extractLsb' 0 16 = s.tx.remain ∧ txProgress.extractLsb' 16 8 = kindCode s.tx.kind ∧
    txProgress.extractLsb' 24 8 = 0 ∧
    exec (.csrRead 0x09) s = .next { s with responses := s.responses ++ [⟨.ok, s.tx.acc⟩] } ∧
    exec (.csrRead 0x0A) s = .next { s with responses := s.responses ++ [⟨.ok, config⟩] } ∧
    config.extractLsb' 0 16 = s.params.rxCap ∧ config.getLsbD 16 = s.params.crc32Present ∧
    config.extractLsb' 17 15 = 0 ∧
    ∀ p, s = State.powerOn p →
      ctrl = 0 ∧ status = 0 ∧ err = 0 ∧ dlvInfo = 0 ∧ dgHdr = 0 ∧ dgBody = 0 ∧ rxProgress = 0 ∧ s.rx.acc = 0 ∧
      txProgress = 0 ∧ s.tx.acc = 0

/-- R45: a reserved CSR number is illegal to read and to write, and changes nothing but `CMD_ERR`. -/
def Obligations.ReservedCsrIsIllegal : Prop :=
  ∀ (s : State) (c : Byte) (v : Word), 0x0B ≤ c.toNat →
    exec (.csrRead c) s = .next { s with err := s.err ||| 0x10, responses := s.responses ++ [⟨.illegal, 0⟩] } ∧
    exec (.csrWrite c v) s = .next { s with err := s.err ||| 0x10, responses := s.responses ++ [⟨.illegal, 0⟩] }

/-- R204, R205: a write to `CTRL` sets the enables from bits 0 and 1 and changes nothing else. -/
def Obligations.CsrWriteCtrlSetsEnables : Prop :=
  ∀ (s : State) (v : Word), exec (.csrWrite 0x00 v) s =
    .next { s with rxEn := v.getLsbD 0, txEn := v.getLsbD 1, responses := s.responses ++ [⟨.ok, 0⟩] }

/-- R206: a write to `ERR` clears exactly the flags written 1. -/
def Obligations.CsrWriteErrClearsFlags : Prop :=
  ∀ (s : State) (v : Word), ∃ e : BitVec 7,
    exec (.csrWrite 0x02 v) s = .next { s with err := e, responses := s.responses ++ [⟨.ok, 0⟩] } ∧
    ∀ i, i < 7 → e.getLsbD i = (s.err.getLsbD i && !v.getLsbD i)

/-- R207: a write to a read-only or reserved number is illegal and changes nothing but `CMD_ERR`. -/
def Obligations.CsrWriteElsewhereIsIllegal : Prop :=
  ∀ (s : State) (c : Byte) (v : Word), c ≠ 0x00 → c ≠ 0x02 →
    exec (.csrWrite c v) s = .next { s with err := s.err ||| 0x10, responses := s.responses ++ [⟨.illegal, 0⟩] }

/-- R208: `BUF_READ` gives what the buffer holds there, the byte last written where one has been, and changes nothing; an
address outside the buffer is illegal. A byte that nothing has written holds an unspecified value (20_memory.md R60), of
which nothing is stated. -/
def Obligations.BufReadReturnsByte : Prop :=
  ∀ (s : State) (a : Half),
    (a.toNat < s.params.rxCap.toNat →
      exec (.bufRead a) s =
        .next { s with responses := s.responses ++ [⟨.ok, (s.bufByte a.toNat).setWidth 32⟩] } ∧
      ∀ v, Memory.get s.rxbuf a.toNat = some v → s.bufByte a.toNat = v) ∧
    (s.params.rxCap.toNat ≤ a.toNat →
      exec (.bufRead a) s = .next { s with err := s.err ||| 0x10, responses := s.responses ++ [⟨.illegal, 0⟩] })

/-! ## Whole-machine rules -/

/-- R87: whatever the host presents, an illegal word too, gives exactly one response and takes nothing more from the
host. -/
def Obligations.EveryInputGivesOneResponse : Prop :=
  ∀ (x : HostInput) (s t : State), present x s = .next t →
    (∃ r, t.responses = s.responses ++ [r]) ∧ t.hostIn = s.hostIn

/-- R232: a command, an illegal word too, that is answered REFUSED, BUSY or ILLEGAL has changed no state other than
`ERR`. -/
def Obligations.FailedCommandChangesOnlyErr : Prop :=
  ∀ (x : HostInput) (s t : State) (r : Response), present x s = .next t → t.responses = s.responses ++ [r] →
    r.status ≠ .ok → t = { s with err := t.err, responses := t.responses }

/-- R239, and R31's "cleared only by": a step raises at most one flag, and only a write to `ERR` clears any. -/
def Obligations.AtMostOneFlagIsRaised : Prop :=
  ∀ (x : HostInput) (s t : State), present x s = .next t →
    t.err = s.err ∨ (∃ f : ErrFlag, t.err = s.err ||| (1#7 <<< f.bit)) ∨
      ∃ v, decode x = .ok (.csrWrite 0x02 v) ∧ t.err = s.err &&& ~~~(v.extractLsb' 0 7)

/-- R242, R236: a delivery comes only from a received byte while none is pending; `dlv_irq` falls only with `DLV_ACK` or
`FRM_RESET`; while it is 1 no command changes what was delivered. -/
def Obligations.DeliveriesDoNotNest : Prop :=
  ∀ (i : Instr) (s t : State), exec i s = .next t →
    (s.dlvIrq = false → t.dlvIrq = true →
      (∃ b, lineByte i = some b) ∧ s.rxEn = true ∧ t.responses = s.responses ++ [⟨.ok, 1⟩]) ∧
    (s.dlvIrq = true → t.dlvIrq = false → i = .dlvAck ∨ i = .frmReset) ∧
    (s.dlvIrq = true → t.dlv.len = s.dlv.len ∧ t.dlv.kind = s.dlv.kind ∧ t.dg = s.dg ∧ t.rxbuf = s.rxbuf)

/-- R73: from a delivery on, through any commands other than `DLV_ACK` and `FRM_RESET`, the delivery stays pending and the
delivered bytes and latches stay as they are. -/
def Obligations.DeliveredPayloadIsStable : Prop :=
  ∀ (is : List Instr) (s t : State), s.dlv.pending = true → (∀ i ∈ is, i ≠ .dlvAck ∧ i ≠ .frmReset) →
    runInstrs is s = .next t →
    t.dlv = s.dlv ∧ t.dg = s.dg ∧ t.rxbuf = s.rxbuf

/-- R124: a partial frame stays in progress through any commands that carry no received byte and are not
`FRM_RESET`. -/
def Obligations.PartialFrameHasNoTimeout : Prop :=
  ∀ (is : List Instr) (s t : State), (∀ i ∈ is, lineByte i = none ∧ i ≠ .frmReset) → runInstrs is s = .next t →
    t.rx = s.rx

/-- R148, receive side: what a received byte does to everything else does not depend on the transmit sequencer, and it
leaves that sequencer and the wire as they are. -/
def Obligations.ReceiveIgnoresTransmitState : Prop :=
  ∀ (i : Instr) (b : Byte) (s : State) (x : TxSeq) (w : List Byte), lineByte i = some b →
    exec i { s with tx := x, txw := w } = andThen (exec i s) (fun t => .next { t with tx := x, txw := w })

/-- R148, transmit side: what a transmit command does does not depend on the receive sequencer, the buffer or the
delivery latches, and it leaves them as they are. -/
def Obligations.TransmitIgnoresReceiveState : Prop :=
  ∀ (i : Instr) (s : State) (r : RxSeq) (d : DeliveryLatch) (g : DgLatch) (m : List Host.Cell), isTransmit i = true →
    exec i { s with rx := r, dlv := d, dg := g, rxbuf := m } =
      andThen (exec i s) (fun t => .next { t with rx := r, dlv := d, dg := g, rxbuf := m })

/-- R61, R235: the wire only grows, by exactly the number of bytes a transmit command reports, and by none for any other
instruction. -/
def Obligations.WireGrowsByReportedBytes : Prop :=
  ∀ (i : Instr) (s t : State), exec i s = .next t →
    ∃ bs, t.txw = s.txw ++ bs ∧ (isTransmit i = false → bs = []) ∧
      (isTransmit i = true → ∃ st, t.responses = s.responses ++ [⟨st, BitVec.ofNat 32 bs.length⟩])

/-- R5, R262: no step changes the parameters. -/
def Obligations.ParametersNeverChange : Prop :=
  ∀ s t : State, step s = .next t → t.params = s.params

/-- R30, R28, R29, R60: only a write to `CTRL` changes an enable; only a delivery changes the delivered length and kind
and the datagram latch; only a payload byte stored at `RX_COUNT` changes the buffer. -/
def Obligations.OnlyTheNamedRulesWriteLatchesAndBuffer : Prop :=
  ∀ (i : Instr) (s t : State), exec i s = .next t →
    ((t.rxEn = s.rxEn ∧ t.txEn = s.txEn) ∨ ∃ v, i = .csrWrite 0x00 v) ∧
    ((t.dlv.len = s.dlv.len ∧ t.dlv.kind = s.dlv.kind ∧ t.dg = s.dg) ∨
      ((∃ b, lineByte i = some b) ∧ t.responses = s.responses ++ [⟨.ok, 1⟩])) ∧
    ((∀ a, t.bufByte a = s.bufByte a) ∨
      ∃ b, lineByte i = some b ∧ s.rx.state = .payload ∧ s.rx.count.toNat < s.params.rxCap.toNat ∧
        ∀ a, t.bufByte a = if a = s.rx.count.toNat then b else s.bufByte a)

/-! ## Invariants -/

/-- The invariant holds after power-on reset, whatever the parameters and whatever the host then presents. -/
def Obligations.PowerOnMeetsInvariant : Prop :=
  ∀ (p : Params) (ins : List HostInput), MachineInv { State.powerOn p with hostIn := ins }

/-- Every step keeps the invariant: R47's seven items and the further facts of `SequencerInvariants`, from every state
that meets them. -/
def Obligations.StepKeepsInvariant : Prop :=
  ∀ s t : State, MachineInv s → step s = .next t → MachineInv t

/-- R47: every state that a block reaches from power-on, under any parameters and any commands, satisfies the seven
invariants. -/
def Obligations.ReachableStatesMeetR47 : Prop :=
  ∀ (p : Params) (ins : List HostInput) (n : Nat) (t : State),
    Host.Core.run Sys2Proof.core n { State.powerOn p with hostIn := ins } = .next t → StateInvariants t

/-- R230, R209 ("The step is total"): from every state that meets the invariant the step answers a next state: no fault
and no refusal. -/
def Obligations.StepIsTotal : Prop :=
  ∀ s : State, MachineInv s → ∃ t, step s = .next t

/-- The whole command stream runs: from power-on, under any parameters, every command the host presents is answered with
exactly one response, and none is left (R87, R209, R230). -/
def Obligations.EveryCommandStreamRunsToItsEnd : Prop :=
  ∀ (p : Params) (ins : List HostInput), ∃ t,
    Host.Core.run Sys2Proof.core ins.length { State.powerOn p with hostIn := ins } = .next t ∧
      t.hostIn = [] ∧ t.responses.length = ins.length

/-- The model's own stops (assumption log 7), all in states that break `MachineInv`: a store or a parse outside the buffer, a
counter that its field cannot hold. No state that meets `MachineInv` faults, and no instruction is refused. -/
def Obligations.FaultsOnlyInIllFormedStates : Prop :=
  (∀ (s : State) (b : Byte), s.txEn = true → s.tx.isOpen = true → s.tx.remain = 0 →
    exec (.txByte b) s = .fault .counterOutOfRange) ∧
  (∀ (s : State) (b : Byte), s.rxEn = true → s.dlv.pending = false → s.rx.state = .payload →
    s.params.rxCap.toNat < s.rx.count.toNat →
    exec (.rxByte b) s = .fault (.noSuchBufferByte s.rx.count.toNat)) ∧
  (∀ (s : State) (b : Byte), s.rxEn = true → s.dlv.pending = false → s.rx.state = .cksumBytes →
    s.rx.ckCount.toNat = 7 → exec (.rxByte b) s = .fault .counterOutOfRange) ∧
  (∀ (s : State) (b : Byte), s.rxEn = true → s.dlv.pending = false → s.rx.state = .cksumBytes →
    s.rx.ckCount.toNat < 7 → trailerWidth s.rx.kind ≤ s.rx.ckCount.toNat + 1 →
    s.rx.ckRecv ||| (b.setWidth 32 <<< (8 * s.rx.ckCount.toNat)) = accFinal s.rx.kind s.rx.acc →
    3 ≤ s.rx.len.toNat → s.params.rxCap.toNat < 3 →
    ∃ a, s.params.rxCap.toNat ≤ a ∧ exec (.rxByte b) s = .fault (.noSuchBufferByte a)) ∧
  (∀ (i : Instr) (s : State) (f : Fault), exec i s = .fault f → ¬ MachineInv s) ∧
  (∀ (i : Instr) (s : State) (r : Refusal), exec i s ≠ .refused r)

/-! ## Responses and CSR values as bytes -/

/-- R64: a response's data and a CSR value carried as bytes are little-endian, bits 7:0 first, and the bytes of a response
give it back; the value of a `CSR_WRITE` travels so inside its command word. That a status is one byte, the low one, is
deduced from R64 (assumption log 15). -/
def Obligations.ResponseBytesAreLittleEndian : Prop :=
  (∀ r : Response, Response.ofBytes r.toBytes = some r ∧ r.toBytes.1.toNat = r.status.code.toNat) ∧
  (∀ v : Word, ∃ b0 b1 b2 b3 : Byte, valueBytes v = [b0, b1, b2, b3] ∧
    v.toNat = b0.toNat + 0x100 * b1.toNat + 0x10000 * b2.toNat + 0x1000000 * b3.toNat) ∧
  (∀ st d, (Response.toBytes ⟨st, d⟩).2 = valueBytes d) ∧
  (∀ (c : Byte) (v : Word) (w : CmdWord), encode (.csrWrite c v) = .command w →
    wordBytes w = [0x08, c] ++ valueBytes v ++ [0x00, 0x00])
end

