-- ==== Sys2Proof/Laws/Checksum.lean ====
section
/-! SUPPORT. Small laws of the checksum accumulator. -/

namespace Sys2Proof.Machine

@[simp] theorem trailerWidth_none : trailerWidth .none = 0 := rfl
@[simp] theorem trailerWidth_xor : trailerWidth .xor = 1 := rfl
@[simp] theorem trailerWidth_crc32 : trailerWidth .crc32 = 4 := rfl

theorem trailerWidth_le (k : CksumKind) : trailerWidth k ≤ 4 := by cases k <;> decide

theorem trailerWidth_eq_zero (k : CksumKind) : trailerWidth k = 0 ↔ k = .none := by cases k <;> decide

@[simp] theorem accUpdate_none (acc : Word) (b : Byte) : accUpdate .none acc b = acc := rfl
theorem accUpdate_xor (acc : Word) (b : Byte) : accUpdate .xor acc b = acc ^^^ b.setWidth 32 := rfl
theorem accUpdate_crc32 (acc : Word) (b : Byte) : accUpdate .crc32 acc b = crcShifts 8 (acc ^^^ b.setWidth 32) := rfl

@[simp] theorem length_trailerBytes (k : CksumKind) (acc : Word) : (trailerBytes k acc).length = trailerWidth k := by
  simp [trailerBytes]

/-- An XOR accumulator below 256 stays there (42_checksum.md R162). -/
theorem accUpdate_xor_lt (acc : Word) (b : Byte) (h : acc.toNat < 256) : (accUpdate .xor acc b).toNat < 256 := by
  rw [accUpdate_xor, BitVec.toNat_xor]
  exact Nat.xor_lt_two_pow (n := 8) h (by simp [BitVec.toNat_setWidth]; omega)

end Sys2Proof.Machine
end

