-- ==== Sys2Proof/Laws/Memory.lean ====
section
/-! SUPPORT. The laws of the receive buffer's list of written bytes: read after write, and the canonical form. -/

namespace Sys2Proof.Machine

@[simp] theorem Memory.get_nil (a : Nat) : Memory.get [] a = none := rfl

theorem Memory.get_cons (c : Host.Cell) (m : Memory) (a : Nat) :
    Memory.get (c :: m) a = if c.1 = a then some c.2 else Memory.get m a := rfl

/-- Reading after writing: the byte written at its address, every other address as before. -/
theorem Memory.get_set (m : Memory) (a x : Nat) (v : Byte) :
    Memory.get (Memory.set m a v) x = if x = a then some v else Memory.get m x := by
  have comm : (a = x) = (x = a) := propext eq_comm
  induction m with
  | nil => simp only [Memory.set, Memory.get_cons, Memory.get_nil, comm]
  | cons c m ih =>
    unfold Memory.set
    split
    · simp only [Memory.get_cons, comm]
    · split
      · simp only [Memory.get_cons, comm]
        split <;> simp_all
      · simp only [Memory.get_cons, ih]
        split <;> split <;> simp_all

@[simp] theorem Memory.get_set_same (m : Memory) (a : Nat) (v : Byte) :
    Memory.get (Memory.set m a v) a = some v := by
  simp [Memory.get_set]

theorem Memory.get_set_other (m : Memory) {a x : Nat} (v : Byte) (h : x ≠ a) :
    Memory.get (Memory.set m a v) x = Memory.get m x := by
  simp [Memory.get_set, h]

theorem Memory.wf_cons (c : Host.Cell) (m : Memory) :
    Memory.wf (c :: m) = true ↔ (∀ d ∈ m.head?, c.1 < d.1) ∧ Memory.wf m = true := by
  cases m <;> simp [Memory.wf]

/-- The first address after a write is the old first one or the one written. -/
theorem Memory.set_head (m : Memory) (a : Nat) (v : Byte) :
    ∀ d ∈ (Memory.set m a v).head?, d.1 = a ∨ d ∈ m.head? := by
  cases m with
  | nil => simp [Memory.set]
  | cons c m =>
    unfold Memory.set
    split
    · simp
    · split <;> simp

/-- A write keeps the canonical form. -/
theorem Memory.wf_set (m : Memory) (a : Nat) (v : Byte) (h : Memory.wf m = true) :
    Memory.wf (Memory.set m a v) = true := by
  induction m with
  | nil => rfl
  | cons c m ih =>
    obtain ⟨hc, hm⟩ := (Memory.wf_cons c m).1 h
    unfold Memory.set
    split
    · exact (Memory.wf_cons _ _).2 ⟨by simpa, h⟩
    · split
      · exact (Memory.wf_cons _ _).2 ⟨by simp_all, hm⟩
      · refine (Memory.wf_cons _ _).2 ⟨fun d hd => ?_, ih hm⟩
        rcases Memory.set_head m a v d hd with hd | hd
        · omega
        · exact hc d hd

/-- Reset memory is in canonical form. -/
theorem Memory.wf_reset : Memory.wf State.reset.rxbuf = true := rfl

/-- What a byte reads as after a store into the buffer. -/
theorem State.bufByte_set (s : State) (a x : Nat) (v : Byte) :
    State.bufByte { s with rxbuf := Memory.set s.rxbuf a v } x = if x = a then v else s.bufByte x := by
  unfold State.bufByte
  simp only [Memory.get_set]
  by_cases h : x = a <;> simp [h]

end Sys2Proof.Machine
end

