-- ==== Sys2Proof/Laws/State.lean ====
section
/-! SUPPORT. One lemma per field per named update of the state, true by rfl. -/

namespace Sys2Proof.Machine

variable (s : State)

@[simp] theorem State.respond_params (st : Status) (d : Word) : (s.respond st d).params = s.params := rfl
@[simp] theorem State.respond_hostIn (st : Status) (d : Word) : (s.respond st d).hostIn = s.hostIn := rfl
@[simp] theorem State.respond_responses (st : Status) (d : Word) : (s.respond st d).responses = s.responses ++ [⟨st, d⟩] := rfl
@[simp] theorem State.respond_rx (st : Status) (d : Word) : (s.respond st d).rx = s.rx := rfl
@[simp] theorem State.respond_dlv (st : Status) (d : Word) : (s.respond st d).dlv = s.dlv := rfl
@[simp] theorem State.respond_dg (st : Status) (d : Word) : (s.respond st d).dg = s.dg := rfl
@[simp] theorem State.respond_rxEn (st : Status) (d : Word) : (s.respond st d).rxEn = s.rxEn := rfl
@[simp] theorem State.respond_txEn (st : Status) (d : Word) : (s.respond st d).txEn = s.txEn := rfl
@[simp] theorem State.respond_err (st : Status) (d : Word) : (s.respond st d).err = s.err := rfl
@[simp] theorem State.respond_tx (st : Status) (d : Word) : (s.respond st d).tx = s.tx := rfl
@[simp] theorem State.respond_rxbuf (st : Status) (d : Word) : (s.respond st d).rxbuf = s.rxbuf := rfl
@[simp] theorem State.respond_txw (st : Status) (d : Word) : (s.respond st d).txw = s.txw := rfl

@[simp] theorem State.raise_params (f : ErrFlag) : (s.raise f).params = s.params := rfl
@[simp] theorem State.raise_hostIn (f : ErrFlag) : (s.raise f).hostIn = s.hostIn := rfl
@[simp] theorem State.raise_responses (f : ErrFlag) : (s.raise f).responses = s.responses := rfl
@[simp] theorem State.raise_rx (f : ErrFlag) : (s.raise f).rx = s.rx := rfl
@[simp] theorem State.raise_dlv (f : ErrFlag) : (s.raise f).dlv = s.dlv := rfl
@[simp] theorem State.raise_dg (f : ErrFlag) : (s.raise f).dg = s.dg := rfl
@[simp] theorem State.raise_rxEn (f : ErrFlag) : (s.raise f).rxEn = s.rxEn := rfl
@[simp] theorem State.raise_txEn (f : ErrFlag) : (s.raise f).txEn = s.txEn := rfl
@[simp] theorem State.raise_err (f : ErrFlag) : (s.raise f).err = raiseFlag s.err f := rfl
@[simp] theorem State.raise_tx (f : ErrFlag) : (s.raise f).tx = s.tx := rfl
@[simp] theorem State.raise_rxbuf (f : ErrFlag) : (s.raise f).rxbuf = s.rxbuf := rfl
@[simp] theorem State.raise_txw (f : ErrFlag) : (s.raise f).txw = s.txw := rfl

@[simp] theorem State.emit_params (bs : List Byte) : (s.emit bs).params = s.params := rfl
@[simp] theorem State.emit_hostIn (bs : List Byte) : (s.emit bs).hostIn = s.hostIn := rfl
@[simp] theorem State.emit_responses (bs : List Byte) : (s.emit bs).responses = s.responses := rfl
@[simp] theorem State.emit_rx (bs : List Byte) : (s.emit bs).rx = s.rx := rfl
@[simp] theorem State.emit_dlv (bs : List Byte) : (s.emit bs).dlv = s.dlv := rfl
@[simp] theorem State.emit_dg (bs : List Byte) : (s.emit bs).dg = s.dg := rfl
@[simp] theorem State.emit_rxEn (bs : List Byte) : (s.emit bs).rxEn = s.rxEn := rfl
@[simp] theorem State.emit_txEn (bs : List Byte) : (s.emit bs).txEn = s.txEn := rfl
@[simp] theorem State.emit_err (bs : List Byte) : (s.emit bs).err = s.err := rfl
@[simp] theorem State.emit_tx (bs : List Byte) : (s.emit bs).tx = s.tx := rfl
@[simp] theorem State.emit_rxbuf (bs : List Byte) : (s.emit bs).rxbuf = s.rxbuf := rfl
@[simp] theorem State.emit_txw (bs : List Byte) : (s.emit bs).txw = s.txw ++ bs := rfl

@[simp] theorem State.goto_params (st : RxState) : (s.goto st).params = s.params := rfl
@[simp] theorem State.goto_hostIn (st : RxState) : (s.goto st).hostIn = s.hostIn := rfl
@[simp] theorem State.goto_responses (st : RxState) : (s.goto st).responses = s.responses := rfl
@[simp] theorem State.goto_rx (st : RxState) : (s.goto st).rx = { s.rx with state := st } := rfl
@[simp] theorem State.goto_dlv (st : RxState) : (s.goto st).dlv = s.dlv := rfl
@[simp] theorem State.goto_dg (st : RxState) : (s.goto st).dg = s.dg := rfl
@[simp] theorem State.goto_rxEn (st : RxState) : (s.goto st).rxEn = s.rxEn := rfl
@[simp] theorem State.goto_txEn (st : RxState) : (s.goto st).txEn = s.txEn := rfl
@[simp] theorem State.goto_err (st : RxState) : (s.goto st).err = s.err := rfl
@[simp] theorem State.goto_tx (st : RxState) : (s.goto st).tx = s.tx := rfl
@[simp] theorem State.goto_rxbuf (st : RxState) : (s.goto st).rxbuf = s.rxbuf := rfl
@[simp] theorem State.goto_txw (st : RxState) : (s.goto st).txw = s.txw := rfl

@[simp] theorem State.event_params (ev : RxEvent) : (s.event ev).params = s.params := rfl
@[simp] theorem State.event_hostIn (ev : RxEvent) : (s.event ev).hostIn = s.hostIn := rfl
@[simp] theorem State.event_responses (ev : RxEvent) : (s.event ev).responses = s.responses ++ [⟨.ok, ev.code⟩] := rfl
@[simp] theorem State.event_rx (ev : RxEvent) : (s.event ev).rx = s.rx := rfl
@[simp] theorem State.event_dlv (ev : RxEvent) : (s.event ev).dlv = s.dlv := rfl
@[simp] theorem State.event_dg (ev : RxEvent) : (s.event ev).dg = s.dg := rfl
@[simp] theorem State.event_rxEn (ev : RxEvent) : (s.event ev).rxEn = s.rxEn := rfl
@[simp] theorem State.event_txEn (ev : RxEvent) : (s.event ev).txEn = s.txEn := rfl
@[simp] theorem State.event_err (ev : RxEvent) : (s.event ev).err = s.err := rfl
@[simp] theorem State.event_tx (ev : RxEvent) : (s.event ev).tx = s.tx := rfl
@[simp] theorem State.event_rxbuf (ev : RxEvent) : (s.event ev).rxbuf = s.rxbuf := rfl
@[simp] theorem State.event_txw (ev : RxEvent) : (s.event ev).txw = s.txw := rfl

@[simp] theorem State.drop_params (f : ErrFlag) : (s.drop f).params = s.params := rfl
@[simp] theorem State.drop_hostIn (f : ErrFlag) : (s.drop f).hostIn = s.hostIn := rfl
@[simp] theorem State.drop_responses (f : ErrFlag) : (s.drop f).responses = s.responses ++ [⟨.ok, 2⟩] := rfl
@[simp] theorem State.drop_rx (f : ErrFlag) : (s.drop f).rx = { s.rx with state := .idle } := rfl
@[simp] theorem State.drop_dlv (f : ErrFlag) : (s.drop f).dlv = s.dlv := rfl
@[simp] theorem State.drop_dg (f : ErrFlag) : (s.drop f).dg = s.dg := rfl
@[simp] theorem State.drop_rxEn (f : ErrFlag) : (s.drop f).rxEn = s.rxEn := rfl
@[simp] theorem State.drop_txEn (f : ErrFlag) : (s.drop f).txEn = s.txEn := rfl
@[simp] theorem State.drop_err (f : ErrFlag) : (s.drop f).err = raiseFlag s.err f := rfl
@[simp] theorem State.drop_tx (f : ErrFlag) : (s.drop f).tx = s.tx := rfl
@[simp] theorem State.drop_rxbuf (f : ErrFlag) : (s.drop f).rxbuf = s.rxbuf := rfl
@[simp] theorem State.drop_txw (f : ErrFlag) : (s.drop f).txw = s.txw := rfl

@[simp] theorem State.illegal_params : (s.illegal).params = s.params := rfl
@[simp] theorem State.illegal_hostIn : (s.illegal).hostIn = s.hostIn := rfl
@[simp] theorem State.illegal_responses : (s.illegal).responses = s.responses ++ [⟨.illegal, 0⟩] := rfl
@[simp] theorem State.illegal_rx : (s.illegal).rx = s.rx := rfl
@[simp] theorem State.illegal_dlv : (s.illegal).dlv = s.dlv := rfl
@[simp] theorem State.illegal_dg : (s.illegal).dg = s.dg := rfl
@[simp] theorem State.illegal_rxEn : (s.illegal).rxEn = s.rxEn := rfl
@[simp] theorem State.illegal_txEn : (s.illegal).txEn = s.txEn := rfl
@[simp] theorem State.illegal_err : (s.illegal).err = raiseFlag s.err .cmdErr := rfl
@[simp] theorem State.illegal_tx : (s.illegal).tx = s.tx := rfl
@[simp] theorem State.illegal_rxbuf : (s.illegal).rxbuf = s.rxbuf := rfl
@[simp] theorem State.illegal_txw : (s.illegal).txw = s.txw := rfl

@[simp] theorem State.refuseTx_params : (s.refuseTx).params = s.params := rfl
@[simp] theorem State.refuseTx_hostIn : (s.refuseTx).hostIn = s.hostIn := rfl
@[simp] theorem State.refuseTx_responses : (s.refuseTx).responses = s.responses ++ [⟨.refused, 0⟩] := rfl
@[simp] theorem State.refuseTx_rx : (s.refuseTx).rx = s.rx := rfl
@[simp] theorem State.refuseTx_dlv : (s.refuseTx).dlv = s.dlv := rfl
@[simp] theorem State.refuseTx_dg : (s.refuseTx).dg = s.dg := rfl
@[simp] theorem State.refuseTx_rxEn : (s.refuseTx).rxEn = s.rxEn := rfl
@[simp] theorem State.refuseTx_txEn : (s.refuseTx).txEn = s.txEn := rfl
@[simp] theorem State.refuseTx_err : (s.refuseTx).err = raiseFlag s.err .txRefused := rfl
@[simp] theorem State.refuseTx_tx : (s.refuseTx).tx = s.tx := rfl
@[simp] theorem State.refuseTx_rxbuf : (s.refuseTx).rxbuf = s.rxbuf := rfl
@[simp] theorem State.refuseTx_txw : (s.refuseTx).txw = s.txw := rfl

@[simp] theorem State.presenting_params (x : HostInput) : (s.presenting x).params = s.params := rfl
@[simp] theorem State.presenting_hostIn (x : HostInput) : (s.presenting x).hostIn = x :: s.hostIn := rfl
@[simp] theorem State.presenting_responses (x : HostInput) : (s.presenting x).responses = s.responses := rfl
@[simp] theorem State.presenting_rx (x : HostInput) : (s.presenting x).rx = s.rx := rfl
@[simp] theorem State.presenting_dlv (x : HostInput) : (s.presenting x).dlv = s.dlv := rfl
@[simp] theorem State.presenting_dg (x : HostInput) : (s.presenting x).dg = s.dg := rfl
@[simp] theorem State.presenting_rxEn (x : HostInput) : (s.presenting x).rxEn = s.rxEn := rfl
@[simp] theorem State.presenting_txEn (x : HostInput) : (s.presenting x).txEn = s.txEn := rfl
@[simp] theorem State.presenting_err (x : HostInput) : (s.presenting x).err = s.err := rfl
@[simp] theorem State.presenting_tx (x : HostInput) : (s.presenting x).tx = s.tx := rfl
@[simp] theorem State.presenting_rxbuf (x : HostInput) : (s.presenting x).rxbuf = s.rxbuf := rfl
@[simp] theorem State.presenting_txw (x : HostInput) : (s.presenting x).txw = s.txw := rfl

@[simp] theorem State.powerOn_params (p : Params) : (State.powerOn p).params = p := rfl
@[simp] theorem State.powerOn_hostIn (p : Params) : (State.powerOn p).hostIn = [] := rfl
@[simp] theorem State.powerOn_responses (p : Params) : (State.powerOn p).responses = [] := rfl
@[simp] theorem State.powerOn_rx (p : Params) : (State.powerOn p).rx = { } := rfl
@[simp] theorem State.powerOn_dlv (p : Params) : (State.powerOn p).dlv = { } := rfl
@[simp] theorem State.powerOn_dg (p : Params) : (State.powerOn p).dg = { } := rfl
@[simp] theorem State.powerOn_rxEn (p : Params) : (State.powerOn p).rxEn = false := rfl
@[simp] theorem State.powerOn_txEn (p : Params) : (State.powerOn p).txEn = false := rfl
@[simp] theorem State.powerOn_err (p : Params) : (State.powerOn p).err = 0 := rfl
@[simp] theorem State.powerOn_tx (p : Params) : (State.powerOn p).tx = { } := rfl
@[simp] theorem State.powerOn_rxbuf (p : Params) : (State.powerOn p).rxbuf = [] := rfl
@[simp] theorem State.powerOn_txw (p : Params) : (State.powerOn p).txw = [] := rfl

/-- `State.bufByte` depends on the buffer alone. -/
theorem State.bufByte_congr {s t : State} (h : t.rxbuf = s.rxbuf) (a : Nat) : t.bufByte a = s.bufByte a := by
  simp only [State.bufByte, h]

/-- `State.hasBufByte` depends on the parameters alone. -/
theorem State.hasBufByte_congr {s t : State} (h : t.params = s.params) (a : Nat) :
    t.hasBufByte a = s.hasBufByte a := by
  simp only [State.hasBufByte, h]

end Sys2Proof.Machine
end

