-- ==== Sys2Proof/Laws/Ops.lean ====
section
/-! SUPPORT. One lemma per shared operation: what it answers, so that no proof unfolds it again. -/

namespace Sys2Proof.Machine

theorem State.hasBufByte_iff (s : State) (a : Nat) : s.hasBufByte a = true ↔ a < s.params.rxCap.toNat := by
  simp [State.hasBufByte]

theorem memRead_eq (s : State) (a : Nat) :
    memRead s a = if a < s.params.rxCap.toNat then .ok (s.bufByte a) else .error (.noSuchBufferByte a) := by
  simp [memRead, State.hasBufByte]

theorem memWrite_eq (s : State) (a : Nat) (v : Byte) :
    memWrite s a v = if a < s.params.rxCap.toNat then .ok { s with rxbuf := Memory.set s.rxbuf a v }
      else .error (.noSuchBufferByte a) := by
  simp [memWrite, State.hasBufByte]

/-- A delivery completes where the parse stays inside the buffer, and leaves the state written out in `Safety.lean`. -/
theorem deliver_eq (s : State) (h : s.rx.len.toNat < 3 ∨ 3 ≤ s.params.rxCap.toNat) :
    deliver s = .next (deliveredState s) := by
  unfold deliver dgParse deliveredState
  by_cases h3 : s.rx.len.toNat < 3
  · simp [h3, State.raise, raiseFlag, ErrFlag.mask, ErrFlag.bit, State.goto, State.event, State.respond, RxEvent.code]
  · have hc : 3 ≤ s.params.rxCap.toNat := by omega
    simp [h3, memRead_eq, bind, Except.bind, pure, Except.pure, State.goto, State.event, State.respond, RxEvent.code,
      State.bufByte, show 0 < s.params.rxCap.toNat by omega, show 1 < s.params.rxCap.toNat by omega,
      show 2 < s.params.rxCap.toNat by omega]

/-- A delivery stops only where the parse would read outside the buffer. -/
theorem deliver_fault (s : State) (h : 3 ≤ s.rx.len.toNat) (hc : s.params.rxCap.toNat < 3) :
    ∃ a, deliver s = .fault (.noSuchBufferByte a) ∧ s.params.rxCap.toNat ≤ a := by
  unfold deliver dgParse
  simp only [show ¬ s.rx.len.toNat < 3 by omega, if_false, memRead_eq, bind, Except.bind, pure, Except.pure]
  by_cases h1 : 1 < s.params.rxCap.toNat
  · exact ⟨2, by simp [h1, show 0 < s.params.rxCap.toNat by omega, show ¬ 2 < s.params.rxCap.toNat by omega], by omega⟩
  · exact ⟨1, by simp [h1], by omega⟩

/-- What a delivery can answer. -/
theorem deliver_cases (s : State) :
    ((s.rx.len.toNat < 3 ∨ 3 ≤ s.params.rxCap.toNat) ∧ deliver s = .next (deliveredState s)) ∨
    (3 ≤ s.rx.len.toNat ∧ s.params.rxCap.toNat < 3 ∧ ∃ a, deliver s = .fault (.noSuchBufferByte a)) := by
  by_cases h : s.rx.len.toNat < 3 ∨ 3 ≤ s.params.rxCap.toNat
  · exact .inl ⟨h, deliver_eq s h⟩
  · obtain ⟨a, ha, -⟩ := deliver_fault s (by omega) (by omega)
    exact .inr ⟨by omega, by omega, a, ha⟩

@[simp] theorem andThen_next {α β : Type} (a : α) (f : α → Host.Outcome β Fault Refusal) :
    andThen (.next a) f = f a := rfl
@[simp] theorem andThen_fault {α β : Type} (e : Fault) (f : α → Host.Outcome β Fault Refusal) :
    andThen (.fault e) f = .fault e := rfl
@[simp] theorem andThen_refused {α β : Type} (r : Refusal) (f : α → Host.Outcome β Fault Refusal) :
    andThen (.refused r) f = .refused r := rfl

/-- A chain answers a next state only through one. -/
theorem andThen_eq_next {α β : Type} {o : Host.Outcome α Fault Refusal} {f : α → Host.Outcome β Fault Refusal} {b : β} :
    andThen o f = .next b ↔ ∃ a, o = .next a ∧ f a = .next b := by
  cases o <;> simp [andThen]

end Sys2Proof.Machine
end

