-- ==== Sys2Proof/Laws/Receive.lean ====
section
/-! SUPPORT. The receive state machine: one equation per check and per state (spec 40_frame_rx.md R111 to R120), cited
instead of unfolding `receiveByte`. -/

namespace Sys2Proof.Machine

variable {s : State} {b : Byte}

theorem receiveByte_disabled (h : s.rxEn = false) : receiveByte b s = .next (s.event .discarded) := by
  simp [receiveByte, h]

theorem receiveByte_busy (h : s.rxEn = true) (hp : s.dlv.pending = true) :
    receiveByte b s = .next (s.respond .busy 0) := by
  simp [receiveByte, h, hp]

theorem receiveByte_idle (h : s.rxEn = true) (hp : s.dlv.pending = false) (hs : s.rx.state = .idle) :
    receiveByte b s = .next (rxIdle b s) := by
  simp [receiveByte, h, hp, hs]

theorem receiveByte_kind (h : s.rxEn = true) (hp : s.dlv.pending = false) (hs : s.rx.state = .cksumType) :
    receiveByte b s = .next (rxKind b s) := by
  simp [receiveByte, h, hp, hs]

theorem receiveByte_lenLsb (h : s.rxEn = true) (hp : s.dlv.pending = false) (hs : s.rx.state = .lenLsb) :
    receiveByte b s = .next (rxLenLsb b s) := by
  simp [receiveByte, h, hp, hs]

theorem receiveByte_lenMsb (h : s.rxEn = true) (hp : s.dlv.pending = false) (hs : s.rx.state = .lenMsb) :
    receiveByte b s = rxLenMsb b s := by
  simp [receiveByte, h, hp, hs]

theorem receiveByte_payload (h : s.rxEn = true) (hp : s.dlv.pending = false) (hs : s.rx.state = .payload) :
    receiveByte b s = rxPayload b s := by
  simp [receiveByte, h, hp, hs]

theorem receiveByte_cksum (h : s.rxEn = true) (hp : s.dlv.pending = false) (hs : s.rx.state = .cksumBytes) :
    receiveByte b s = rxCksum b s := by
  simp [receiveByte, h, hp, hs]

/-- Which check or state decides a received byte (60_exceptions.md R237). -/
theorem receiveByte_cases (b : Byte) (s : State) :
    (s.rxEn = false ∧ receiveByte b s = .next (s.event .discarded)) ∨
    (s.rxEn = true ∧ s.dlv.pending = true ∧ receiveByte b s = .next (s.respond .busy 0)) ∨
    (s.rxEn = true ∧ s.dlv.pending = false ∧
      ((s.rx.state = .idle ∧ receiveByte b s = .next (rxIdle b s)) ∨
       (s.rx.state = .cksumType ∧ receiveByte b s = .next (rxKind b s)) ∨
       (s.rx.state = .lenLsb ∧ receiveByte b s = .next (rxLenLsb b s)) ∨
       (s.rx.state = .lenMsb ∧ receiveByte b s = rxLenMsb b s) ∨
       (s.rx.state = .payload ∧ receiveByte b s = rxPayload b s) ∨
       (s.rx.state = .cksumBytes ∧ receiveByte b s = rxCksum b s))) := by
  cases h : s.rxEn
  · exact .inl ⟨rfl, receiveByte_disabled h⟩
  · cases hp : s.dlv.pending
    · refine .inr (.inr ⟨rfl, rfl, ?_⟩)
      cases hs : s.rx.state <;>
        simp [receiveByte_idle, receiveByte_kind, receiveByte_lenLsb, receiveByte_lenMsb, receiveByte_payload,
          receiveByte_cksum, h, hp, hs]
    · exact .inr (.inl ⟨rfl, rfl, receiveByte_busy h hp⟩)

/-- The payload is complete: collect a trailer, or deliver where the kind has none. -/
theorem afterPayload_trailer (h : s.rx.kind ≠ .none) :
    afterPayload s = .next ((s.goto .cksumBytes).event .accepted) := by
  simp [afterPayload, trailerWidth_eq_zero, h]

theorem afterPayload_none (h : s.rx.kind = .none) : afterPayload s = deliver s := by
  simp [afterPayload, h]

/-- What state `PAYLOAD` answers (R117, R118). -/
theorem rxPayload_overflow (h : s.rx.count = s.params.rxCap) : rxPayload b s = .next (s.drop .overflow) := by
  simp [rxPayload, h]

/-- The state after a payload byte is stored. -/
def storedState (s : State) (b : Byte) : State :=
  { s with
    rxbuf := Memory.set s.rxbuf s.rx.count.toNat b
    rx := { s.rx with acc := accUpdate s.rx.kind s.rx.acc b, count := s.rx.count + 1 } }

theorem rxPayload_store (h : s.rx.count.toNat < s.params.rxCap.toNat) :
    rxPayload b s =
      if s.rx.count + 1 = s.rx.len then afterPayload (storedState s b)
      else .next ((storedState s b).event .accepted) := by
  have hne : s.rx.count ≠ s.params.rxCap := by rintro e; rw [e] at h; omega
  simp [rxPayload, hne, memWrite_eq, h, storedState]

theorem rxPayload_outside (h : s.params.rxCap.toNat < s.rx.count.toNat) :
    rxPayload b s = .fault (.noSuchBufferByte s.rx.count.toNat) := by
  have hne : s.rx.count ≠ s.params.rxCap := by rintro e; rw [e] at h; omega
  simp [rxPayload, hne, memWrite_eq, show ¬ s.rx.count.toNat < s.params.rxCap.toNat by omega]

/-- The state after a trailer byte is collected (R119). -/
def collectedState (s : State) (b : Byte) : State :=
  { s with
    rx := { s.rx with
      ckRecv := s.rx.ckRecv ||| (b.setWidth 32 <<< (8 * s.rx.ckCount.toNat))
      ckCount := BitVec.ofNat 3 (s.rx.ckCount.toNat + 1) } }

theorem rxCksum_more (h : s.rx.ckCount.toNat + 1 < trailerWidth s.rx.kind) :
    rxCksum b s = .next ((collectedState s b).event .accepted) := by
  have := trailerWidth_le s.rx.kind
  simp [rxCksum, show ¬ 7 < s.rx.ckCount.toNat + 1 by omega, h, collectedState]

theorem rxCksum_last (h7 : s.rx.ckCount.toNat < 7) (h : trailerWidth s.rx.kind ≤ s.rx.ckCount.toNat + 1) :
    rxCksum b s =
      if (collectedState s b).rx.ckRecv = accFinal s.rx.kind s.rx.acc then deliver (collectedState s b)
      else .next ((collectedState s b).drop .cksumMismatch) := by
  unfold rxCksum
  rw [if_neg (by omega)]
  dsimp only
  rw [if_neg (by omega)]
  rfl

theorem rxCksum_full (h : s.rx.ckCount.toNat = 7) : rxCksum b s = .fault .counterOutOfRange := by
  simp [rxCksum, h]

/-- Everything a received byte can do when it answers a next state, one case per rule. -/
inductive RxOutcome (b : Byte) (s : State) : State → Prop
  /-- R111. -/
  | discarded (h : s.rxEn = false) : RxOutcome b s (s.event .discarded)
  /-- R112. -/
  | busy (h : s.rxEn = true) (hp : s.dlv.pending = true) : RxOutcome b s (s.respond .busy 0)
  /-- R113. -/
  | sof (h : s.rxEn = true) (hp : s.dlv.pending = false) (hs : s.rx.state = .idle) (hb : b = 0x01) :
      RxOutcome b s ({ s with rx := { s.rx with state := .cksumType, count := 0, ckCount := 0, ckRecv := 0 } }.event .accepted)
  /-- R113. -/
  | ignored (h : s.rxEn = true) (hp : s.dlv.pending = false) (hs : s.rx.state = .idle) (hb : b ≠ 0x01) :
      RxOutcome b s (s.event .ignored)
  /-- R114. -/
  | kind (h : s.rxEn = true) (hp : s.dlv.pending = false) (hs : s.rx.state = .cksumType) (k : CksumKind)
      (hk : rxKindOf s.params b = some k) :
      RxOutcome b s ({ s with rx := { s.rx with kind := k, state := .lenLsb } }.event .accepted)
  /-- R114. -/
  | badKind (h : s.rxEn = true) (hp : s.dlv.pending = false) (hs : s.rx.state = .cksumType)
      (hk : rxKindOf s.params b = none) : RxOutcome b s (s.drop .badKind)
  /-- R115. -/
  | lenLsb (h : s.rxEn = true) (hp : s.dlv.pending = false) (hs : s.rx.state = .lenLsb) :
      RxOutcome b s ({ s with rx := { s.rx with len := b.setWidth 16, state := .lenMsb } }.event .accepted)
  /-- R116. -/
  | lenMsb (h : s.rxEn = true) (hp : s.dlv.pending = false) (hs : s.rx.state = .lenMsb) (len : Half)
      (hl : len = b ++ s.rx.len.extractLsb' 0 8) (hpos : 0 < len.toNat) :
      RxOutcome b s ({ s with rx := { s.rx with len := len, acc := accInit s.rx.kind, state := .payload } }.event .accepted)
  /-- R116, a zero length with a trailer. -/
  | emptyTrailer (h : s.rxEn = true) (hp : s.dlv.pending = false) (hs : s.rx.state = .lenMsb)
      (hl : b ++ s.rx.len.extractLsb' 0 8 = (0 : Half)) (hk : s.rx.kind ≠ .none) :
      RxOutcome b s ({ s with rx := { s.rx with len := 0, acc := accInit s.rx.kind, state := .cksumBytes } }.event .accepted)
  /-- R116, a zero length without a trailer. -/
  | emptyDelivered (h : s.rxEn = true) (hp : s.dlv.pending = false) (hs : s.rx.state = .lenMsb)
      (hl : b ++ s.rx.len.extractLsb' 0 8 = (0 : Half)) (hk : s.rx.kind = .none) :
      RxOutcome b s (deliveredState { s with rx := { s.rx with len := 0, acc := accInit s.rx.kind } })
  /-- R117. -/
  | overflow (h : s.rxEn = true) (hp : s.dlv.pending = false) (hs : s.rx.state = .payload)
      (hc : s.rx.count = s.params.rxCap) : RxOutcome b s (s.drop .overflow)
  /-- R118. -/
  | stored (h : s.rxEn = true) (hp : s.dlv.pending = false) (hs : s.rx.state = .payload)
      (hc : s.rx.count.toNat < s.params.rxCap.toNat) (hl : s.rx.count + 1 ≠ s.rx.len) :
      RxOutcome b s ((storedState s b).event .accepted)
  /-- R118, the last payload byte with a trailer to come. -/
  | storedLast (h : s.rxEn = true) (hp : s.dlv.pending = false) (hs : s.rx.state = .payload)
      (hc : s.rx.count.toNat < s.params.rxCap.toNat) (hl : s.rx.count + 1 = s.rx.len) (hk : s.rx.kind ≠ .none) :
      RxOutcome b s (((storedState s b).goto .cksumBytes).event .accepted)
  /-- R118, the last payload byte without a trailer. -/
  | storedDelivered (h : s.rxEn = true) (hp : s.dlv.pending = false) (hs : s.rx.state = .payload)
      (hc : s.rx.count.toNat < s.params.rxCap.toNat) (hl : s.rx.count + 1 = s.rx.len) (hk : s.rx.kind = .none) :
      RxOutcome b s (deliveredState (storedState s b))
  /-- R119. -/
  | collected (h : s.rxEn = true) (hp : s.dlv.pending = false) (hs : s.rx.state = .cksumBytes)
      (hw : s.rx.ckCount.toNat + 1 < trailerWidth s.rx.kind) :
      RxOutcome b s ((collectedState s b).event .accepted)
  /-- R120. -/
  | matched (h : s.rxEn = true) (hp : s.dlv.pending = false) (hs : s.rx.state = .cksumBytes)
      (h7 : s.rx.ckCount.toNat < 7) (hw : trailerWidth s.rx.kind ≤ s.rx.ckCount.toNat + 1)
      (he : (collectedState s b).rx.ckRecv = accFinal s.rx.kind s.rx.acc)
      (hc : s.rx.len.toNat < 3 ∨ 3 ≤ s.params.rxCap.toNat) :
      RxOutcome b s (deliveredState (collectedState s b))
  /-- R120. -/
  | mismatched (h : s.rxEn = true) (hp : s.dlv.pending = false) (hs : s.rx.state = .cksumBytes)
      (h7 : s.rx.ckCount.toNat < 7) (hw : trailerWidth s.rx.kind ≤ s.rx.ckCount.toNat + 1)
      (he : (collectedState s b).rx.ckRecv ≠ accFinal s.rx.kind s.rx.acc) :
      RxOutcome b s ((collectedState s b).drop .cksumMismatch)

/-- A delivery that answers a next state leaves the written-out state. -/
theorem deliver_next {s t : State} (h : deliver s = .next t) :
    t = deliveredState s ∧ (s.rx.len.toNat < 3 ∨ 3 ≤ s.params.rxCap.toNat) := by
  rcases deliver_cases s with ⟨hc, e⟩ | ⟨-, -, a, e⟩ <;> rw [e] at h <;> simp_all

/-- The inversion of a received byte: whatever it answers, one of the rules' cases holds. -/
theorem receiveByte_next {s t : State} {b : Byte} (h : receiveByte b s = .next t) : RxOutcome b s t := by
  rcases receiveByte_cases b s with ⟨h1, e⟩ | ⟨h1, h2, e⟩ |
    ⟨h1, h2, ⟨h3, e⟩ | ⟨h3, e⟩ | ⟨h3, e⟩ | ⟨h3, e⟩ | ⟨h3, e⟩ | ⟨h3, e⟩⟩ <;> rw [e] at h
  · cases h; exact .discarded h1
  · cases h; exact .busy h1 h2
  · cases h
    unfold rxIdle
    split
    · exact .sof h1 h2 h3 ‹_›
    · exact .ignored h1 h2 h3 ‹_›
  · cases h
    unfold rxKind
    split
    · exact .kind h1 h2 h3 _ ‹_›
    · exact .badKind h1 h2 h3 ‹_›
  · cases h; exact .lenLsb h1 h2 h3
  · unfold rxLenMsb at h
    dsimp only at h
    split at h
    · cases h; exact .lenMsb h1 h2 h3 _ rfl ‹_›
    · have hz : b ++ s.rx.len.extractLsb' 0 8 = (0 : Half) := by
        have hn : ¬ (b ++ s.rx.len.extractLsb' 0 8 : Half).toNat > 0 := ‹_›
        exact BitVec.eq_of_toNat_eq (by rw [Nat.eq_zero_of_not_pos hn]; rfl)
      rw [hz] at h
      by_cases hk : s.rx.kind = .none
      · rw [afterPayload_none (by exact hk)] at h
        rw [(deliver_next h).1]
        exact .emptyDelivered h1 h2 h3 hz hk
      · rw [afterPayload_trailer (by exact hk)] at h
        cases h
        exact .emptyTrailer h1 h2 h3 hz hk
  · rcases Nat.lt_trichotomy s.rx.count.toNat s.params.rxCap.toNat with hl | he | hg
    · rw [rxPayload_store hl] at h
      split at h
      · by_cases hk : s.rx.kind = .none
        · rw [afterPayload_none (by exact hk)] at h
          rw [(deliver_next h).1]
          exact .storedDelivered h1 h2 h3 hl ‹_› hk
        · rw [afterPayload_trailer (by exact hk)] at h
          cases h
          exact .storedLast h1 h2 h3 hl ‹_› hk
      · cases h; exact .stored h1 h2 h3 hl ‹_›
    · have hc := BitVec.eq_of_toNat_eq he
      rw [rxPayload_overflow hc] at h
      cases h
      exact .overflow h1 h2 h3 hc
    · rw [rxPayload_outside hg] at h; cases h
  · by_cases h7 : s.rx.ckCount.toNat < 7
    · by_cases hw : s.rx.ckCount.toNat + 1 < trailerWidth s.rx.kind
      · rw [rxCksum_more hw] at h; cases h; exact .collected h1 h2 h3 hw
      · rw [rxCksum_last h7 (by omega)] at h
        split at h
        · rw [(deliver_next h).1]
          exact .matched h1 h2 h3 h7 (by omega) ‹_› (deliver_next h).2
        · cases h; exact .mismatched h1 h2 h3 h7 (by omega) ‹_›
    · have := s.rx.ckCount.isLt
      rw [rxCksum_full (by omega)] at h; cases h

end Sys2Proof.Machine
end

