-- ==== Sys2Proof/Laws/Transmit.lean ====
section
/-! SUPPORT. The transmit sequencer: the header, one body byte, and when a start is accepted, each as one equation. -/

namespace Sys2Proof.Machine

variable {s : State}

/-- The header of a non-empty frame (spec 41_frame_tx.md R142). -/
theorem txHeader_open (k : CksumKind) {len : Half} (h : len ≠ 0) (s : State) :
    txHeader k len s =
      ({ s with
          txw := s.txw ++ [0x01, kindCode k, len.extractLsb' 0 8, len.extractLsb' 8 8]
          tx := { kind := k, acc := accInit k, remain := len, isOpen := true } }, 4) := by
  unfold txHeader
  rw [if_neg h]
  rfl

/-- The header of an empty frame, with its trailer (R144). -/
theorem txHeader_empty (k : CksumKind) (s : State) :
    txHeader k 0 s =
      ({ s with
          txw := s.txw ++ [0x01, kindCode k, 0, 0] ++ trailerBytes k (accInit k)
          tx := { kind := k, acc := accInit k, remain := 0, isOpen := false } }, 4 + trailerWidth k) := by
  simp [txHeader, txTrailer, State.emit]

/-- A body byte that is not the last (R145). -/
theorem txBody_more (b : Byte) {s : State} (h : s.tx.remain - 1 ≠ 0) :
    txBody b s =
      ({ s with
          txw := s.txw ++ [b]
          tx := { s.tx with acc := accUpdate s.tx.kind s.tx.acc b, remain := s.tx.remain - 1 } }, 1) := by
  unfold txBody
  dsimp only
  rw [if_neg (by simpa [State.emit] using h)]
  rfl

/-- The last body byte, with the trailer (R145, R146). -/
theorem txBody_last (b : Byte) {s : State} (h : s.tx.remain = 1) :
    txBody b s =
      ({ s with
          txw := s.txw ++ [b] ++ trailerBytes s.tx.kind (accUpdate s.tx.kind s.tx.acc b)
          tx := { s.tx with acc := accUpdate s.tx.kind s.tx.acc b, remain := 0, isOpen := false } },
        1 + trailerWidth s.tx.kind) := by
  simp [txBody, txTrailer, h, State.emit]

/-- When a start is accepted, and as which kind (R141, R143). -/
theorem txStartKind_eq_some {kind : Byte} {r : CksumKind × Bool} :
    txStartKind s kind = some r ↔ s.txEn = true ∧ s.tx.isOpen = false ∧ txKindOf s.params kind = some r := by
  cases h : s.txEn <;> cases h' : s.tx.isOpen <;> simp [txStartKind, h, h']

theorem txStartKind_eq_none {kind : Byte} :
    txStartKind s kind = none ↔ s.txEn = false ∨ s.tx.isOpen = true ∨ txKindOf s.params kind = none := by
  cases h : s.txEn <;> cases h' : s.tx.isOpen <;> simp [txStartKind, h, h']

/-- `raiseDowngrade` touches `ERR` alone. -/
theorem raiseDowngrade_eq (d : Bool) (s : State) :
    raiseDowngrade d s = { s with err := if d then raiseFlag s.err .cksumDowngrade else s.err } := by
  cases d <;> rfl

/-- The state after an accepted start, before its response (R142, R144). -/
def startedState (s : State) (k : CksumKind) (downgraded : Bool) (len : Half) : State :=
  { s with
    err := if downgraded then raiseFlag s.err .cksumDowngrade else s.err
    txw := s.txw ++ ([0x01, kindCode k, len.extractLsb' 0 8, len.extractLsb' 8 8] ++
      if len = 0 then trailerBytes k (accInit k) else [])
    tx := { kind := k, acc := accInit k, remain := len, isOpen := decide (len ≠ 0) } }

/-- `TX_START`, accepted. -/
theorem execTxStart_accepted {s : State} {kind : Byte} {k : CksumKind} {d : Bool} (len : Half)
    (h : txStartKind s kind = some (k, d)) :
    execTxStart kind len s = .next ((startedState s k d len).respond .ok
      (BitVec.ofNat 32 (4 + if len = 0 then trailerWidth k else 0))) := by
  unfold execTxStart
  simp only [h]
  by_cases hl : len = 0
  · subst hl
    rw [txHeader_empty, raiseDowngrade_eq]
    simp [startedState]
  · rw [txHeader_open k hl, raiseDowngrade_eq]
    simp [startedState, show ¬ len = 0#16 from hl]

/-- `TX_START`, refused. -/
theorem execTxStart_refused {s : State} {kind : Byte} (len : Half) (h : txStartKind s kind = none) :
    execTxStart kind len s = .next s.refuseTx := by
  simp [execTxStart, h]

/-- The state after an accepted body byte, before its response (R145, R146). -/
def bodyState (s : State) (b : Byte) : State :=
  { s with
    txw := s.txw ++ (b :: if s.tx.remain = 1 then trailerBytes s.tx.kind (accUpdate s.tx.kind s.tx.acc b) else [])
    tx := { s.tx with
      acc := accUpdate s.tx.kind s.tx.acc b
      remain := s.tx.remain - 1
      isOpen := s.tx.isOpen && decide (s.tx.remain ≠ 1) } }

theorem txBody_eq (b : Byte) (s : State) :
    txBody b s = (bodyState s b, 1 + if s.tx.remain = 1 then trailerWidth s.tx.kind else 0) := by
  by_cases h : s.tx.remain = 1
  · rw [txBody_last b h]
    simp [bodyState, h]
  · rw [txBody_more b (by intro h0; exact h (by simpa using (BitVec.sub_eq_iff_eq_add.1 h0)))]
    simp [bodyState, show ¬ s.tx.remain = 1#16 from h]

/-- `TX_BYTE`, accepted. -/
theorem execTxByte_accepted {s : State} (b : Byte) (h : s.txEn = true) (ho : s.tx.isOpen = true)
    (hr : s.tx.remain ≠ 0) :
    execTxByte b s = .next ((bodyState s b).respond .ok
      (BitVec.ofNat 32 (1 + if s.tx.remain = 1 then trailerWidth s.tx.kind else 0))) := by
  unfold execTxByte
  rw [if_neg (by simp [h, ho]), if_neg hr]
  simp only [txBody_eq]

/-- `TX_BYTE`, refused. -/
theorem execTxByte_refused {s : State} (b : Byte) (h : s.txEn = false ∨ s.tx.isOpen = false) :
    execTxByte b s = .next s.refuseTx := by
  unfold execTxByte
  rw [if_pos (by simpa using h)]

theorem execTxByte_underflow {s : State} (b : Byte) (h : s.txEn = true) (ho : s.tx.isOpen = true)
    (hr : s.tx.remain = 0) : execTxByte b s = .fault .counterOutOfRange := by
  simp [execTxByte, h, ho, hr]

/-- `DG_TX_START`, accepted: the header, then the three header bytes as body bytes (43_datagram.md R186). -/
theorem execDgTxStart_accepted {s : State} {kind : Byte} {k : CksumKind} {d : Bool} (session : Half) (type : Byte)
    {bodyLen : Half} (hb : bodyLen.toNat ≤ 0xFFFC) (h : txStartKind s kind = some (k, d)) :
    execDgTxStart kind session type bodyLen s =
      .next ((bodyState (bodyState (bodyState (startedState s k d (bodyLen + 3)) (session.extractLsb' 0 8))
        (session.extractLsb' 8 8)) type).respond .ok
        (BitVec.ofNat 32 (7 + if bodyLen = 0 then trailerWidth k else 0))) := by
  have hlen : (bodyLen + 3).toNat = bodyLen.toNat + 3 := by
    rw [BitVec.toNat_add]
    exact Nat.mod_eq_of_lt (by simp; omega)
  have h0 : bodyLen + 3 ≠ 0 := by intro e; rw [e] at hlen; simp at hlen
  have h1 : ¬ bodyLen + 3 = 1 := by intro e; rw [e] at hlen; simp at hlen
  have h2 : ¬ bodyLen + 3 - 1 = 1 := by bv_omega
  have h3 : (bodyLen + 3 - 1 - 1 = 1) ↔ bodyLen = 0 := by
    constructor
    · intro e; bv_omega
    · rintro rfl; decide
  have hs : txHeader k (bodyLen + 3) (raiseDowngrade d s) = (startedState s k d (bodyLen + 3), 4) := by
    rw [txHeader_open k h0, raiseDowngrade_eq]
    simp [startedState, show ¬ bodyLen + 3#16 = 0#16 from h0]
  unfold execDgTxStart
  rw [if_neg (by omega)]
  simp only [h, hs, txBody_eq]
  have e1 : (startedState s k d (bodyLen + 3)).tx.remain = bodyLen + 3 := rfl
  have e2 : (bodyState (startedState s k d (bodyLen + 3)) (session.extractLsb' 0 8)).tx.remain = bodyLen + 3 - 1 := rfl
  have e3 : (bodyState (bodyState (startedState s k d (bodyLen + 3)) (session.extractLsb' 0 8))
      (session.extractLsb' 8 8)).tx.remain = bodyLen + 3 - 1 - 1 := rfl
  have e4 : (bodyState (bodyState (startedState s k d (bodyLen + 3)) (session.extractLsb' 0 8))
      (session.extractLsb' 8 8)).tx.kind = k := rfl
  simp only [e1, e2, e3, e4, h1, h2, h3, if_false, Nat.add_zero]
  congr 3
  omega

/-- `DG_TX_START`, refused. -/
theorem execDgTxStart_refused {s : State} {kind : Byte} (session : Half) (type : Byte) {bodyLen : Half}
    (h : 0xFFFC < bodyLen.toNat ∨ txStartKind s kind = none) :
    execDgTxStart kind session type bodyLen s = .next s.refuseTx := by
  unfold execDgTxStart
  split
  · rfl
  · rw [h.resolve_left (by omega)]

end Sys2Proof.Machine
end

