-- ==== Sys2Proof/Laws/Exec.lean ====
section
/-! SUPPORT. What `exec`, `step` and a sequence run: one equation per instruction, so that a proof names the meaning it
needs. -/

namespace Sys2Proof.Machine

variable (s : State)

theorem exec_nop : exec .nop s = execNop s := rfl
theorem exec_rxByte (b : Byte) : exec (.rxByte b) s = receiveByte b s := rfl
theorem exec_txStart (kind : Byte) (len : Half) : exec (.txStart kind len) s = execTxStart kind len s := rfl
theorem exec_txByte (b : Byte) : exec (.txByte b) s = execTxByte b s := rfl
theorem exec_dgTxStart (kind : Byte) (session : Half) (type : Byte) (bodyLen : Half) :
    exec (.dgTxStart kind session type bodyLen) s = execDgTxStart kind session type bodyLen s := rfl
theorem exec_dlvAck : exec .dlvAck s = .next (ackDelivery s) := rfl
theorem exec_frmReset : exec .frmReset s = execFrmReset s := rfl
theorem exec_csrRead (csr : Byte) : exec (.csrRead csr) s = execCsrRead csr s := rfl
theorem exec_csrWrite (csr : Byte) (value : Word) :
    exec (.csrWrite csr value) s = .next (csrWriteValue s (csrOfNumber csr) value) := rfl
theorem exec_bufRead (addr : Half) : exec (.bufRead addr) s = execBufRead addr s := rfl

/-- An instruction that carries a received byte receives it. -/
theorem exec_of_lineByte {i : Instr} {b : Byte} (h : lineByte i = some b) : exec i s = receiveByte b s := by
  cases i <;> simp_all [lineByte] <;> subst h <;> rfl

@[simp] theorem runInstrs_nil : runInstrs [] s = .next s := rfl
theorem runInstrs_cons (i : Instr) (is : List Instr) :
    runInstrs (i :: is) s = andThen (exec i s) (runInstrs is) := rfl

/-- A sequence run in two parts. -/
theorem runInstrs_append (is js : List Instr) :
    ∀ s, runInstrs (is ++ js) s = andThen (runInstrs is s) (runInstrs js) := by
  induction is with
  | nil => intro s; rfl
  | cons i is ih =>
    intro s
    rw [List.cons_append, runInstrs_cons, runInstrs_cons]
    cases exec i s <;> simp [ih]

theorem step_of_nil {s : State} (h : s.hostIn = []) : step s = .next s := by simp [step, takeInput, h]

theorem step_of_cons {s : State} {x : HostInput} {rest : List HostInput} (h : s.hostIn = x :: rest) :
    step s = present x { s with hostIn := rest } := by
  simp [step, takeInput, h]

theorem present_of_decode {x : HostInput} {i : Instr} (h : decode x = .ok i) : present x s = exec i s := by
  simp [present, h]

/-- `CTRL` has number 0 alone, `ERR` number 2 alone (10_state.md R33). -/
theorem csrOfNumber_eq_ctrl {c : Byte} (h : csrOfNumber c = some .ctrl) : c = 0x00 := by
  unfold csrOfNumber at h
  split at h <;> simp at h
  exact BitVec.eq_of_toNat_eq ‹_›

theorem csrOfNumber_eq_err {c : Byte} (h : csrOfNumber c = some .err) : c = 0x02 := by
  unfold csrOfNumber at h
  split at h <;> simp at h
  exact BitVec.eq_of_toNat_eq ‹_›

/-- Everything an instruction can do when it answers a next state: one case per rule, the received bytes by
`RxOutcome`. -/
inductive ExecOutcome : Instr → State → State → Prop
  | received {i : Instr} {s t : State} {b : Byte} (hb : lineByte i = some b) (h : RxOutcome b s t) : ExecOutcome i s t
  | nop {s : State} : ExecOutcome .nop s (s.respond .ok 0)
  | txStart {s : State} {kind : Byte} {len : Half} {k : CksumKind} {d : Bool}
      (h : txStartKind s kind = some (k, d)) :
      ExecOutcome (.txStart kind len) s ((startedState s k d len).respond .ok
        (BitVec.ofNat 32 (4 + if len = 0 then trailerWidth k else 0)))
  | txStartRefused {s : State} {kind : Byte} {len : Half} (h : txStartKind s kind = none) :
      ExecOutcome (.txStart kind len) s s.refuseTx
  | txByte {s : State} {b : Byte} (h : s.txEn = true) (ho : s.tx.isOpen = true) (hr : s.tx.remain ≠ 0) :
      ExecOutcome (.txByte b) s ((bodyState s b).respond .ok
        (BitVec.ofNat 32 (1 + if s.tx.remain = 1 then trailerWidth s.tx.kind else 0)))
  | txByteRefused {s : State} {b : Byte} (h : s.txEn = false ∨ s.tx.isOpen = false) :
      ExecOutcome (.txByte b) s s.refuseTx
  | dgTxStart {s : State} {kind type : Byte} {session bodyLen : Half} {k : CksumKind} {d : Bool}
      (hb : bodyLen.toNat ≤ 0xFFFC) (h : txStartKind s kind = some (k, d)) :
      ExecOutcome (.dgTxStart kind session type bodyLen) s
        ((bodyState (bodyState (bodyState (startedState s k d (bodyLen + 3)) (session.extractLsb' 0 8))
          (session.extractLsb' 8 8)) type).respond .ok
          (BitVec.ofNat 32 (7 + if bodyLen = 0 then trailerWidth k else 0)))
  | dgTxStartRefused {s : State} {kind type : Byte} {session bodyLen : Half}
      (h : 0xFFFC < bodyLen.toNat ∨ txStartKind s kind = none) :
      ExecOutcome (.dgTxStart kind session type bodyLen) s s.refuseTx
  | dlvAck {s : State} : ExecOutcome .dlvAck s (ackDelivery s)
  | frmReset {s : State} :
      ExecOutcome .frmReset s ({ s with rx := { }, dlv := { s.dlv with pending := false }, tx := { } }.respond .ok 0)
  | csrRead {s : State} {c : Byte} {r : Csr} (h : csrOfNumber c = some r) :
      ExecOutcome (.csrRead c) s (s.respond .ok (csrValue s r))
  | csrReadIllegal {s : State} {c : Byte} (h : csrOfNumber c = none) : ExecOutcome (.csrRead c) s s.illegal
  | csrWriteCtrl {s : State} {v : Word} :
      ExecOutcome (.csrWrite 0x00 v) s ({ s with rxEn := v.getLsbD 0, txEn := v.getLsbD 1 }.respond .ok 0)
  | csrWriteErr {s : State} {v : Word} :
      ExecOutcome (.csrWrite 0x02 v) s ({ s with err := clearFlags s.err v }.respond .ok 0)
  | csrWriteIllegal {s : State} {c : Byte} {v : Word} (h : csrOfNumber c ≠ some .ctrl)
      (h' : csrOfNumber c ≠ some .err) : ExecOutcome (.csrWrite c v) s s.illegal
  | bufRead {s : State} {a : Half} (h : a.toNat < s.params.rxCap.toNat) :
      ExecOutcome (.bufRead a) s (s.respond .ok ((s.bufByte a.toNat).setWidth 32))
  | bufReadIllegal {s : State} {a : Half} (h : s.params.rxCap.toNat ≤ a.toNat) :
      ExecOutcome (.bufRead a) s s.illegal

/-- The inversion of `exec`: an instruction that carries a received byte does one of the receive rules' cases. -/
theorem exec_next_of_lineByte {i : Instr} {s t : State} {b : Byte} (hb : lineByte i = some b)
    (h : exec i s = .next t) : ExecOutcome i s t :=
  .received hb (receiveByte_next (by rw [← exec_of_lineByte s hb]; exact h))

/-- The inversion of `exec`: whatever it answers, one of the rules' cases holds. -/
theorem exec_next {i : Instr} {s t : State} (h : exec i s = .next t) : ExecOutcome i s t := by
  cases i
  case rxByte b => exact exec_next_of_lineByte rfl h
  case sof => exact exec_next_of_lineByte rfl h
  case cksumKindNone => exact exec_next_of_lineByte rfl h
  case cksumKindXor => exact exec_next_of_lineByte rfl h
  case cksumKindCrc32 => exact exec_next_of_lineByte rfl h
  case nop => cases h; exact .nop
  case dlvAck => cases h; exact .dlvAck
  case frmReset => cases h; exact .frmReset
  case txStart kind len =>
    rw [exec_txStart] at h
    cases hk : txStartKind s kind with
    | none => rw [execTxStart_refused _ hk] at h; cases h; exact .txStartRefused hk
    | some r => rw [execTxStart_accepted (k := r.1) (d := r.2) _ hk] at h; cases h; exact .txStart hk
  case txByte b =>
    rw [exec_txByte] at h
    by_cases hr : s.txEn = false ∨ s.tx.isOpen = false
    · rw [execTxByte_refused _ hr] at h; cases h; exact .txByteRefused hr
    · obtain ⟨h1, h2⟩ : s.txEn = true ∧ s.tx.isOpen = true := by simpa using hr
      by_cases h0 : s.tx.remain = 0
      · rw [execTxByte_underflow _ h1 h2 h0] at h; cases h
      · rw [execTxByte_accepted _ h1 h2 h0] at h; cases h; exact .txByte h1 h2 h0
  case dgTxStart kind session type bodyLen =>
    rw [exec_dgTxStart] at h
    by_cases hb : bodyLen.toNat ≤ 0xFFFC
    · cases hk : txStartKind s kind with
      | none => rw [execDgTxStart_refused _ _ (.inr hk)] at h; cases h; exact .dgTxStartRefused (.inr hk)
      | some r => rw [execDgTxStart_accepted (k := r.1) (d := r.2) _ _ hb hk] at h; cases h; exact .dgTxStart hb hk
    · have hb' : 0xFFFC < bodyLen.toNat := by omega
      rw [execDgTxStart_refused _ _ (.inl hb')] at h
      cases h
      exact .dgTxStartRefused (.inl hb')
  case csrRead c =>
    rw [exec_csrRead] at h
    unfold execCsrRead at h
    split at h <;> cases h
    · exact .csrRead ‹_›
    · exact .csrReadIllegal ‹_›
  case csrWrite c v =>
    rw [exec_csrWrite] at h
    cases h
    unfold csrWriteValue
    split
    next hc => obtain rfl := csrOfNumber_eq_ctrl hc; exact .csrWriteCtrl
    next hc => obtain rfl := csrOfNumber_eq_err hc; exact .csrWriteErr
    next hc he => exact .csrWriteIllegal hc he
  case bufRead a =>
    rw [exec_bufRead] at h
    unfold execBufRead at h
    cases h
    split
    · exact .bufRead ((State.hasBufByte_iff _ _).1 ‹_›)
    · exact .bufReadIllegal (by rw [State.hasBufByte_iff] at *; omega)

end Sys2Proof.Machine
end

