-- ==== Sys2Proof/Laws/PerInstr.lean ====
section
/-! SUPPORT. The family `EncodingWellFormed`: what an instruction is encoded as is well formed by the formats of spec
30_encoding.md R86, or is a wire symbol's own byte. -/

namespace Sys2Proof.Laws.EncodingWellFormed

/-- The encoding of `i` is a word whose must-be-zero fields are zero, or a byte that decodes to a wire symbol. -/
def Statement (i : Instr) : Prop :=
  match encode i with
  | .command w => (CommandFields.ofWord w).wellFormed = true
  | .wireByte place b => decodeSymbol place b = .ok i

/-- Cutting the fields out of a word built from fields gives them back. -/
theorem ofWord_toWord (f : CommandFields) : CommandFields.ofWord f.toWord = f := by
  obtain ⟨op, a8, a16, b16, b8, rsv⟩ := f
  simp only [CommandFields.ofWord, CommandFields.toWord, CommandFields.mk.injEq]
  refine ⟨?_, ?_, ?_, ?_, ?_, ?_⟩ <;>
    · apply BitVec.eq_of_getLsbD_eq
      intro i hi
      simp only [BitVec.getLsbD_extractLsb', BitVec.getLsbD_append]
      simp only [hi, decide_true, Bool.true_and]
      repeat (first | (rw [if_pos (by omega)]; done) | rw [if_neg (by omega)] | rw [if_pos (by omega)])
      try (congr 1; omega)

theorem nop : Statement .nop := by simp [Statement, encode, ofWord_toWord]; decide
theorem rxByte (b : Byte) : Statement (.rxByte b) := by
  simp [Statement, encode, ofWord_toWord, CommandFields.wellFormed, Format.ofOpcode, Format.zeroFieldsOk]
theorem txStart (kind : Byte) (len : Half) : Statement (.txStart kind len) := by
  simp [Statement, encode, ofWord_toWord, CommandFields.wellFormed, Format.ofOpcode, Format.zeroFieldsOk]
theorem txByte (b : Byte) : Statement (.txByte b) := by
  simp [Statement, encode, ofWord_toWord, CommandFields.wellFormed, Format.ofOpcode, Format.zeroFieldsOk]
theorem dgTxStart (kind : Byte) (session : Half) (type : Byte) (bodyLen : Half) :
    Statement (.dgTxStart kind session type bodyLen) := by
  simp [Statement, encode, ofWord_toWord, CommandFields.wellFormed, Format.ofOpcode, Format.zeroFieldsOk]
theorem dlvAck : Statement .dlvAck := by simp [Statement, encode, ofWord_toWord]; decide
theorem frmReset : Statement .frmReset := by simp [Statement, encode, ofWord_toWord]; decide
theorem csrRead (csr : Byte) : Statement (.csrRead csr) := by
  simp [Statement, encode, ofWord_toWord, CommandFields.wellFormed, Format.ofOpcode, Format.zeroFieldsOk]
theorem csrWrite (csr : Byte) (value : Word) : Statement (.csrWrite csr value) := by
  simp [Statement, encode, ofWord_toWord, CommandFields.withW32, CommandFields.wellFormed, Format.ofOpcode,
    Format.zeroFieldsOk]
theorem bufRead (addr : Half) : Statement (.bufRead addr) := by
  simp [Statement, encode, ofWord_toWord, CommandFields.wellFormed, Format.ofOpcode, Format.zeroFieldsOk]
theorem sof : Statement .sof := by rfl
theorem cksumKindNone : Statement .cksumKindNone := by rfl
theorem cksumKindXor : Statement .cksumKindXor := by rfl
theorem cksumKindCrc32 : Statement .cksumKindCrc32 := by rfl

end Sys2Proof.Laws.EncodingWellFormed
end

