-- ==== Sys2Proof/Laws/Transport.lean ====
section
/-! SUPPORT. Small laws of the bytes that carry a response (spec 20_memory.md R64). -/

namespace Sys2Proof.Machine

@[simp] theorem length_valueBytes (v : Word) : (valueBytes v).length = 4 := rfl

@[simp] theorem Response.toBytes_data (r : Response) : r.toBytes.2 = valueBytes r.data := rfl

@[simp] theorem Response.toBytes_status (r : Response) : r.toBytes.1 = r.status.code.setWidth 8 := rfl

/-- The byte of a status carries that status (30_encoding.md R87). -/
@[simp] theorem statusOfByte_code (st : Status) : statusOfByte (st.code.setWidth 8) = some st := by cases st <;> rfl

end Sys2Proof.Machine
end

