-- ==== Sys2Proof/Tests/Slice0.lean ====
section
/-! SUPPORT. Tests on fixed values and the witnesses of the obligations' hypotheses. The words, responses and bytes
are those of spec 95_test_vectors.md (the vector's id is in the docstring) or are written out by hand from the rule named.
`Tests.witness_<name>` shows concrete states and operands that meet the hypotheses of the obligation of that name, one
conjunct for each clause, at boundary values. -/

namespace Sys2Proof.Tests

open Sys2Proof Sys2Proof.Machine

/-! ## Small states -/

/-- Both directions enabled after power-on, as the vectors start. -/
def base (cap : Half := 64) (crc : Bool := true) : State :=
  { State.powerOn ⟨cap, crc, [0x20]⟩ with rxEn := true, txEn := true }

/-- The receiver inside a frame. -/
def receiving (st : RxState) (k : CksumKind) (len count : Half) (acc : Word := 0) (ck : BitVec 3 := 0) (recv : Word := 0)
    (cap : Half := 64) (buf : List Host.Cell := []) : State :=
  { base cap with rx := ⟨st, k, len, count, acc, ck, recv⟩, rxbuf := buf }

/-- A transmit frame open. -/
def sending (k : CksumKind) (remain : Half) (acc : Word) : State := { base with tx := ⟨true, k, remain, acc⟩ }

/-- A delivery pending: RX-1 of the spec's vectors, after its last byte. -/
def delivered : State :=
  { base with
    rx := ⟨.idle, .xor, 3, 3, 0xDD, 1, 0xDD⟩
    dlv := ⟨true, 3, .xor⟩
    dg := ⟨true, 0xBBAA, 0xCC, 0, false⟩
    rxbuf := [(0, 0xAA), (1, 0xBB), (2, 0xCC)] }

/-- The outcome is a next state in which `p` holds. -/
def holdsAfter (o : Res) (p : State → Bool) : Bool :=
  match o with
  | .next t => p t
  | .fault _ => false
  | .refused _ => false

/-- The response given last is (st, d). -/
def answered (t : State) (st : Status) (d : Word) : Bool := decide (t.responses.getLast? = some ⟨st, d⟩)

/-! ## Decoding: words of the vectors -/

theorem test_decode_nop : decodeWord 0x0000000000000000 = .ok .nop := by rfl
theorem test_decode_rxByte : decodeWord 0x0000000000007001 = .ok (.rxByte 0x70) := by rfl
theorem test_decode_txStart : decodeWord 0x00000000FFFF0102 = .ok (.txStart 0x01 65535) := by rfl
theorem test_decode_txByte : decodeWord 0x0000000000006903 = .ok (.txByte 0x69) := by rfl
theorem test_decode_dgTxStart : decodeWord 0x00201234FFFC0104 = .ok (.dgTxStart 0x01 0x1234 0x20 0xFFFC) := by rfl
theorem test_decode_dlvAck : decodeWord 0x0000000000000005 = .ok .dlvAck := by rfl
theorem test_decode_frmReset : decodeWord 0x0000000000000006 = .ok .frmReset := by rfl
theorem test_decode_csrRead : decodeWord 0x0000000000000707 = .ok (.csrRead 0x07) := by rfl
theorem test_decode_csrWrite : decodeWord 0x0000FFFFFFFD0008 = .ok (.csrWrite 0x00 0xFFFFFFFD) := by rfl
theorem test_decode_bufRead : decodeWord 0x0000000000400009 = .ok (.bufRead 64) := by rfl
theorem test_decode_sof : decodeTableWord 8 0x01 = some .sof := by rfl
theorem test_decode_none : decodeTableWord 8 0x00 = some .cksumKindNone := by rfl
theorem test_decode_xor : decodeSymbol .offset1 0x01 = .ok .cksumKindXor := by rfl
theorem test_decode_crc32 : decodeTableWord 8 0x20 = some .cksumKindCrc32 := by rfl

/-- R94: an expansion's words (`CLEAR_ERR`, `ENABLE`). -/
theorem test_encode_pseudo :
    (Pseudo.expand .clearErr).map (List.map encode) = some [.command 0x00000000007F0208] ∧
    (Pseudo.expand .enable).map (List.map encode) = some [.command 0x0000000000030008] := by decide

/-- CT-2 to CT-7 and P3 row 25: illegal words. -/
theorem test_decode_illegal :
    decodeWord 0x0000000000000100 = .error (.mustBeZero 0x00) ∧ decodeWord 0x000000000000000A = .error (.reservedOpcode 0x0A) ∧
    decodeWord 0x00000000000000FF = .error (.reservedOpcode 0xFF) ∧ decodeWord 0x0000000000010001 = .error (.mustBeZero 0x01) ∧
    decodeWord 0x0100000000000004 = .error (.mustBeZero 0x04) ∧ decodeWord 0x0000000000000109 = .error (.mustBeZero 0x09) ∧
    decodeWord 0x0100000000000000 = .error (.mustBeZero 0x00) := ⟨rfl, rfl, rfl, rfl, rfl, rfl, rfl⟩

theorem test_decode_truncated : decodeBytes [0x01, 0xAA] = .error .truncated := by rfl

/-! ## WellFormed: each check refuses an ill-formed term -/

theorem test_wf_reserved : CommandFields.wellFormed { op := 0x0A } = false := by decide
theorem test_wf_c0_a8 : CommandFields.wellFormed { op := 0x00, a8 := 1 } = false := by decide
theorem test_wf_c0_others :
    CommandFields.wellFormed { op := 0x05, a16 := 1 } = false ∧ CommandFields.wellFormed { op := 0x05, b16 := 1 } = false ∧
    CommandFields.wellFormed { op := 0x06, b8 := 1 } = false ∧ CommandFields.wellFormed { op := 0x06, rsv := 1 } = false := by
  decide
theorem test_wf_cb :
    CommandFields.wellFormed { op := 0x01, a8 := 0xFF } = true ∧ CommandFields.wellFormed { op := 0x01, a16 := 1 } = false ∧
    CommandFields.wellFormed { op := 0x03, b16 := 1 } = false ∧ CommandFields.wellFormed { op := 0x07, b8 := 1 } = false ∧
    CommandFields.wellFormed { op := 0x07, rsv := 1 } = false := by decide
theorem test_wf_cbh :
    CommandFields.wellFormed { op := 0x02, a8 := 1, a16 := 1 } = true ∧
    CommandFields.wellFormed { op := 0x02, b16 := 1 } = false ∧ CommandFields.wellFormed { op := 0x02, b8 := 1 } = false ∧
    CommandFields.wellFormed { op := 0x02, rsv := 1 } = false := by decide
theorem test_wf_ch :
    CommandFields.wellFormed { op := 0x09, a16 := 1 } = true ∧ CommandFields.wellFormed { op := 0x09, a8 := 1 } = false ∧
    CommandFields.wellFormed { op := 0x09, b16 := 1 } = false ∧ CommandFields.wellFormed { op := 0x09, b8 := 1 } = false ∧
    CommandFields.wellFormed { op := 0x09, rsv := 1 } = false := by decide
theorem test_wf_cdg :
    CommandFields.wellFormed { op := 0x04, a8 := 1, a16 := 1, b16 := 1, b8 := 1 } = true ∧
    CommandFields.wellFormed { op := 0x04, rsv := 1 } = false := by decide
theorem test_wf_cwr :
    CommandFields.wellFormed { op := 0x08, a8 := 1, a16 := 1, b16 := 1 } = true ∧
    CommandFields.wellFormed { op := 0x08, b8 := 1 } = false ∧ CommandFields.wellFormed { op := 0x08, rsv := 1 } = false := by
  decide

/-- The masks of the opcode table are zero exactly on the operand fields of the six formats of R86. -/
theorem test_masks :
    (List.range 10).map (fun n => (commandRow (BitVec.ofNat 8 n)).map (·.mask)) =
      opcodeTable.map (fun r => some r.1) ∧
    (List.range 10).map (fun n => (commandRow (BitVec.ofNat 8 n)).map (·.matchBits)) =
      opcodeTable.map (fun r => some r.2) := ⟨rfl, rfl⟩

/-! ## One step each -/

/-- CT-1. -/
theorem test_nop : holdsAfter (exec .nop base) (fun t => answered t .ok 0) = true := by decide
/-- RX-1's last byte: delivered, the parse latched. -/
theorem test_rxByte_delivers :
    holdsAfter (exec (.rxByte 0xDD) (receiving .cksumBytes .xor 3 3 0xDD (buf := [(0, 0xAA), (1, 0xBB), (2, 0xCC)])))
      (fun t => answered t .ok 1 && decide (t.dlv = ⟨true, 3, .xor⟩ ∧ t.dg = ⟨true, 0xBBAA, 0xCC, 0, false⟩ ∧ t.err = 0)) =
        true := by decide
/-- RX-14's last byte: the buffer is full. -/
theorem test_rxByte_overflow :
    holdsAfter (exec (.rxByte 0xCC) (receiving .payload .none 3 2 (cap := 2) (buf := [(0, 0xAA), (1, 0xBB)])))
      (fun t => answered t .ok 2 && decide (t.err = 0x02 ∧ t.rx.state = .idle ∧ t.rx.count = 2)) = true := by decide
/-- TX-11. -/
theorem test_txStart_longest :
    holdsAfter (exec (.txStart 0x01 65535) base)
      (fun t => answered t .ok 4 && decide (t.txw = [0x01, 0x01, 0xFF, 0xFF] ∧ csrValue t .txProgress = 0x0001FFFF)) =
        true := by decide
/-- TX-9's start: downgraded. -/
theorem test_txStart_downgrade :
    holdsAfter (exec (.txStart 0x20 1) (base 64 false))
      (fun t => answered t .ok 4 && decide (t.txw = [0x01, 0x01, 0x01, 0x00] ∧ t.err = 0x40)) = true := by decide
/-- TX-1's last byte, with its trailer 0xDD. -/
theorem test_txByte_last :
    holdsAfter (exec (.txByte 0xCC) (sending .xor 1 0x11))
      (fun t => answered t .ok 2 && decide (t.txw = [0xCC, 0xDD] ∧ t.tx.isOpen = false)) = true := by decide
/-- TX-10. -/
theorem test_txByte_refused :
    holdsAfter (exec (.txByte 0x00) base) (fun t => answered t .refused 0 && decide (t.txw = [] ∧ t.err = 0x20)) = true := by
  decide
/-- DG-2. -/
theorem test_dgTxStart_empty :
    holdsAfter (exec (.dgTxStart 0x20 0x1234 0x20 0) base)
      (fun t => answered t .ok 11 &&
        decide (t.txw = [0x01, 0x20, 0x03, 0x00, 0x34, 0x12, 0x20, 0x45, 0xC4, 0xB9, 0x9F])) = true := by decide +kernel
/-- DG-6. -/
theorem test_dgTxStart_too_long :
    holdsAfter (exec (.dgTxStart 0x01 0x1234 0x20 0xFFFD) base)
      (fun t => answered t .refused 0 && decide (t.txw = [] ∧ t.err = 0x20)) = true := by decide
/-- CT-17. -/
theorem test_dlvAck :
    holdsAfter (exec .dlvAck delivered) (fun t => answered t .ok 1 && decide (t.dlv = ⟨false, 3, .xor⟩)) = true := by decide
/-- CT-18. -/
theorem test_frmReset :
    holdsAfter (exec .frmReset (receiving .payload .xor 5 2 0x11 (buf := [(0, 0xAA), (1, 0xBB)])))
      (fun t => answered t .ok 0 && decide (csrValue t .rxProgress = 0 ∧ csrValue t .rxAcc = 0 ∧
        t.rxbuf = [(0, 0xAA), (1, 0xBB)])) = true := by decide
/-- CT-19. -/
theorem test_csrRead_status :
    holdsAfter (exec (.csrRead 0x01) delivered) (fun t => answered t .ok 0x00000118) = true := by decide
/-- CT-8. -/
theorem test_csrRead_config :
    holdsAfter (exec (.csrRead 0x0A) base) (fun t => answered t .ok 0x00010040) = true := by decide
/-- CT-12. -/
theorem test_csrWrite_ctrl :
    holdsAfter (exec (.csrWrite 0x00 0xFFFFFFFD) base) (fun t => decide (t.rxEn = true ∧ t.txEn = false)) = true := by decide
/-- CT-13. -/
theorem test_csrWrite_err :
    holdsAfter (exec (.csrWrite 0x02 0x01) { base with err := 0x05 }) (fun t => decide (t.err = 0x04)) = true := by decide
/-- CT-15, CT-16. -/
theorem test_bufRead :
    holdsAfter (exec (.bufRead 1) delivered) (fun t => answered t .ok 0xBB) = true ∧
    holdsAfter (exec (.bufRead 64) delivered) (fun t => answered t .illegal 0 && decide (t.err = 0x10)) = true := by decide
/-- R81: SOF leaves `IDLE`. -/
theorem test_sof : holdsAfter (exec .sof base) (fun t => decide (t.rx.state = .cksumType)) = true := by decide
/-- R82: the three kinds. -/
theorem test_cksumKindNone :
    holdsAfter (exec .cksumKindNone (receiving .cksumType .crc32 0 0)) (fun t => decide (t.rx.kind = .none)) = true := by decide
theorem test_cksumKindXor :
    holdsAfter (exec .cksumKindXor (receiving .cksumType .none 0 0)) (fun t => decide (t.rx.kind = .xor)) = true := by decide
theorem test_cksumKindCrc32 :
    holdsAfter (exec .cksumKindCrc32 (receiving .cksumType .none 0 0)) (fun t => decide (t.rx.kind = .crc32)) = true := by decide
/-- CT-3 and the first step after reset: an illegal word raises `CMD_ERR` and is answered (ILLEGAL, 0). -/
theorem test_step_illegal :
    holdsAfter (step (State.reset.withFetchWord 64 0x0A)) (fun t => answered t .illegal 0 && decide (t.err = 0x10)) = true := by
  decide
/-- P1 row 1 as the first step after reset. -/
theorem test_step_first :
    holdsAfter (step (State.reset.withFetchWord 64 0x0000000000010008)) (fun t => decide (t.rxEn = true ∧ t.txEn = false)) =
      true := by decide

/-- R94: `TX_BUFFER` stops at the first refusal and counts the accepted bytes. -/
theorem test_txBuffer :
    (match runTxBuffer [0xCC, 0x00] (sending .xor 1 0x11) with
      | .next r => decide (r.2 = 1 ∧ r.1.txw = [0xCC, 0xDD])
      | .fault _ => false
      | .refused _ => false) = true := by decide
/-- RX-19 and RX-20: a byte answered `BUSY` is presented again after `DLV_ACK`. -/
theorem test_rxStream_busy :
    holdsAfter (runRxStream [0x01] delivered) (fun t => decide (t.responses.map (·.status) = [.busy, .ok, .ok])) = true := by
  decide

/-- R64 by hand: the data 0x00010040 of CT-8, low byte first, and the response back; a byte above 3 is no status. -/
theorem test_response_bytes :
    Response.toBytes ⟨.ok, 0x00010040⟩ = (0x00, [0x40, 0x00, 0x01, 0x00]) ∧
    Response.ofBytes (0x03, [0x40, 0x00, 0x01, 0x00]) = some ⟨.illegal, 0x00010040⟩ ∧
    Response.ofBytes (0x04, [0x40, 0x00, 0x01, 0x00]) = none := by decide

/-! ## Witnesses: encoding and the step -/

theorem witness_EncodeOfDecodeIsIdentity :
    decode (.command 0x0020123400022004) = .ok (.dgTxStart 0x20 0x1234 0x20 2) ∧
    decode (.wireByte .offset1 0x20) = .ok .cksumKindCrc32 := ⟨rfl, rfl⟩
theorem witness_StepOfAnyWord_legal :
    (base.presenting (.command 0x0000000000000A07)).hostIn = .command 0x0000000000000A07 :: [] ∧
    ∃ r ∈ opcodeTable, (0x0000000000000A07 : CmdWord) &&& r.1 = r.2 := by decide
theorem witness_StepOfAnyWord_illegal :
    (base.presenting (.command 0x0000000000000100)).hostIn = .command 0x0000000000000100 :: [] ∧
    ¬ ∃ r ∈ opcodeTable, (0x0000000000000100 : CmdWord) &&& r.1 = r.2 := by decide
theorem witness_StepRunsWhatIsPresented :
    (base.presenting (.command 0)).hostIn = .command 0 :: [] ∧ decode (.command 0) = .ok .nop ∧
    (base.presenting (.wireByte .offset0 0x55)).hostIn = .wireByte .offset0 0x55 :: [] ∧
    decodeSymbol .offset0 0x55 = .error (.noSymbol 0x55) ∧ base.hostIn = [] := ⟨rfl, rfl, rfl, rfl, rfl⟩
theorem witness_PowerOnResetValues : State.powerOn ⟨0, false, []⟩ = State.powerOn ⟨0, false, []⟩ := rfl

/-! ## Witnesses: receive -/

/-- The receiver is enabled and nothing is pending. -/
def awake (s : State) : Bool := s.rxEn && !s.dlv.pending

theorem witness_RxDisabledDiscardsByte : ({ delivered with rxEn := false } : State).rxEn = false := by decide
theorem witness_RxPendingIsBusy : delivered.rxEn = true ∧ delivered.dlv.pending = true := by decide
theorem witness_RxIdleHuntsForSof :
    base.rxEn = true ∧ base.dlv.pending = false ∧ base.rx.state = .idle ∧ (0x01 : Byte) = 0x01 ∧ (0x00 : Byte) ≠ 0x01 := by
  decide
theorem witness_RxKindByteSelectsChecksum :
    awake (receiving .cksumType .none 0 0) = true ∧ (receiving .cksumType .none 0 0).rx.state = .cksumType ∧
    (0x20 : Byte) = kindCode .crc32 ∧ (receiving .cksumType .none 0 0).params.crc32Present = true ∧
    (0x00 : Byte) = kindCode .none ∧ (0x01 : Byte) = kindCode .xor ∧
    ((0x02 : Byte) ≠ 0x00 ∧ (0x02 : Byte) ≠ 0x01 ∧ ((0x02 : Byte) = 0x20 → (base 64).params.crc32Present = false)) ∧
    ((0x20 : Byte) ≠ 0x00 ∧ (0x20 : Byte) ≠ 0x01 ∧ ((0x20 : Byte) = 0x20 → (base 64 false).params.crc32Present = false)) := by
  decide
theorem witness_RxLengthBytes :
    awake (receiving .lenLsb .xor 0 0) = true ∧ (receiving .lenLsb .xor 0 0).rx.state = .lenLsb ∧
    awake (receiving .lenMsb .xor 0xFF 0) = true ∧ (receiving .lenMsb .xor 0xFF 0).rx.state = .lenMsb ∧
    0 < ((0xFF : Byte) ++ (receiving .lenMsb .xor 0xFF 0).rx.len.extractLsb' 0 8 : Half).toNat ∧
    ((0x00 : Byte) ++ (receiving .lenMsb .xor 0 0).rx.len.extractLsb' 0 8 : Half) = 0 ∧
    (receiving .lenMsb .xor 0 0).rx.kind ≠ .none ∧ (receiving .lenMsb .none 0 0).rx.kind = .none := by decide
theorem witness_RxPayloadOverflowDropsFrame :
    awake (receiving .payload .none 3 2 (cap := 2)) = true ∧ (receiving .payload .none 3 2 (cap := 2)).rx.state = .payload ∧
    (receiving .payload .none 3 2 (cap := 2)).rx.count = (receiving .payload .none 3 2 (cap := 2)).params.rxCap ∧
    (receiving .payload .none 1 0 (cap := 0)).rx.count = (receiving .payload .none 1 0 (cap := 0)).params.rxCap := by decide
theorem witness_RxPayloadStoresByte :
    awake (receiving .payload .xor 3 0) = true ∧ (receiving .payload .xor 3 0).rx.state = .payload ∧
    (receiving .payload .xor 3 63).rx.count.toNat < (receiving .payload .xor 3 63).params.rxCap.toNat ∧
    (receiving .payload .xor 3 0).rx.count + 1 ≠ (receiving .payload .xor 3 0).rx.len ∧
    (receiving .payload .xor 3 2).rx.count + 1 = (receiving .payload .xor 3 2).rx.len ∧
    (receiving .payload .xor 3 2).rx.kind ≠ .none ∧
    (receiving .payload .none 64 63).rx.count + 1 = (receiving .payload .none 64 63).rx.len ∧
    (receiving .payload .none 64 63).rx.kind = .none := by decide
theorem witness_RxTrailerCollectedThenCompared :
    awake (receiving .cksumBytes .crc32 3 3) = true ∧ (receiving .cksumBytes .crc32 3 3).rx.state = .cksumBytes ∧
    (receiving .cksumBytes .crc32 3 3 (ck := 2)).rx.ckCount.toNat + 1 < trailerWidth .crc32 ∧
    trailerWidth .crc32 ≤ (receiving .cksumBytes .crc32 3 3 (ck := 3)).rx.ckCount.toNat + 1 ∧
    (0x4DF84C ||| ((0xBE : Byte).setWidth 32 <<< (8 * 3)) : Word) = accFinal .crc32 0x41B207B3 ∧
    (0x4DF84C ||| ((0xBF : Byte).setWidth 32 <<< (8 * 3)) : Word) ≠ accFinal .crc32 0x41B207B3 ∧
    3 ≤ (receiving .cksumBytes .crc32 3 3).params.rxCap.toNat ∧
    (receiving .cksumBytes .crc32 2 2).rx.len.toNat < 3 := by decide
/-- A delivery of two bytes and one of three. -/
theorem witness_DeliveryLatchesAndParse :
    (∃ t, exec (.rxByte 0x22) (receiving .payload .none 2 1 (buf := [(0, 0x11)])) = .next t ∧
      t.responses = (receiving .payload .none 2 1 (buf := [(0, 0x11)])).responses ++ [⟨.ok, 1⟩] ∧ t.rx.len.toNat < 3) ∧
    (∃ t, exec (.rxByte 0x33) (receiving .payload .none 3 2 (buf := [(0, 0x11), (1, 0x22)])) = .next t ∧
      t.responses = (receiving .payload .none 3 2 (buf := [(0, 0x11), (1, 0x22)])).responses ++ [⟨.ok, 1⟩] ∧
      3 ≤ t.rx.len.toNat) := ⟨⟨_, rfl, by decide⟩, ⟨_, rfl, by decide⟩⟩
theorem witness_ZeroLengthFramesAreDelivered :
    receiverReady (base 0 true) ∧ (base 0 true).params.crc32Present = true := by
  unfold receiverReady; decide
theorem witness_RejectionKeepsEverythingElse :
    (∃ t, exec (.rxByte 0x02) (receiving .cksumType .none 0 0) = .next t ∧
      t.responses = (receiving .cksumType .none 0 0).responses ++ [⟨.ok, 2⟩]) ∧
    (∃ t, exec (.rxByte 0x02) (receiving .payload .xor 3 2 (cap := 2)) = .next t ∧
      t.responses = (receiving .payload .xor 3 2 (cap := 2)).responses ++ [⟨.ok, 2⟩]) ∧
    (∃ t, exec (.rxByte 0x14) (receiving .cksumBytes .xor 3 3 0xDD) = .next t ∧
      t.responses = (receiving .cksumBytes .xor 3 3 0xDD).responses ++ [⟨.ok, 2⟩]) :=
  ⟨⟨_, rfl, by decide⟩, ⟨_, rfl, by decide⟩, ⟨_, rfl, by decide⟩⟩
theorem witness_WireSymbolsFormTheHeader :
    awake base = true ∧ base.rx.state = .idle ∧ (receiving .cksumType .xor 0 0).rx.state = .cksumType ∧
    awake (receiving .cksumType .xor 0 0) = true ∧ (base 64 true).params.crc32Present = true ∧
    (base 64 false).params.crc32Present = false := by decide
/-- An empty payload with no buffer, and a payload that fills the buffer. -/
theorem witness_ReceiverDeliversEveryValidFrame :
    receiverReady (base 0) ∧ acceptsKind (base 0).params .none ∧ ([] : List Byte).length ≤ (base 0).params.rxCap.toNat ∧
    receiverReady (base 2) ∧ acceptsKind (base 2).params .crc32 ∧ ([0xAA, 0xBB] : List Byte).length ≤ (base 2).params.rxCap.toNat := by
  unfold receiverReady acceptsKind; decide
/-- RX-7 after one ignored byte. -/
theorem witness_ReceiverDeliversOnlyValidFrames :
    receiverReady base ∧ ∃ t, feed [0x55, 0x01, 0x00, 0x00, 0x00] base = .next t ∧
      t.responses = base.responses ++ [⟨.ok, 3⟩, ⟨.ok, 0⟩, ⟨.ok, 0⟩, ⟨.ok, 0⟩] ++ [⟨.ok, 1⟩] ∧
      ∀ r ∈ ([⟨.ok, 3⟩, ⟨.ok, 0⟩, ⟨.ok, 0⟩, ⟨.ok, 0⟩] : List Response), r ≠ ⟨.ok, 1⟩ :=
  ⟨by unfold receiverReady; decide, _, rfl, by decide, by decide⟩

/-! ## Witnesses: transmit -/

theorem witness_TxStartEmitsHeader :
    base.txEn = true ∧ base.tx.isOpen = false ∧ base.params.crc32Present = true ∧ (1 : Half) ≠ 0 ∧ (0xFFFF : Half) ≠ 0 := by decide
theorem witness_TxStartRefused :
    (State.powerOn ⟨64, true, []⟩).txEn = false ∧ (sending .xor 1 0).tx.isOpen = true ∧
    ((0x02 : Byte) ≠ 0x00 ∧ (0x02 : Byte) ≠ 0x01 ∧ (0x02 : Byte) ≠ 0x20) := by decide
theorem witness_TxStartDowngradesCrc32 :
    (base 64 false).txEn = true ∧ (base 64 false).tx.isOpen = false ∧ (base 64 false).params.crc32Present = false ∧
    (0xFFFF : Half) ≠ 0 ∧ (0 : Half) = 0 := by decide
theorem witness_TxByteEmitsBody :
    (State.powerOn ⟨64, true, []⟩).txEn = false ∧ base.tx.isOpen = false ∧
    (sending .crc32 2 0).txEn = true ∧ (sending .crc32 2 0).tx.isOpen = true ∧ 1 < (sending .crc32 2 0).tx.remain.toNat ∧
    (sending .none 1 0).txEn = true ∧ (sending .none 1 0).tx.isOpen = true ∧ (sending .none 1 0).tx.remain = 1 ∧
    accUpdate (sending .none 1 0).tx.kind (sending .none 1 0).tx.acc 0xFF = 0 := by decide
theorem witness_DgTxStartEmitsFrameAndDatagramHeader :
    base.txEn = true ∧ base.tx.isOpen = false ∧ (0xFFFC : Half).toNat ≤ 0xFFFC ∧ (0xFFFF : Half) = 0xFFFC + 3 ∧
    (0 : Half).toNat ≤ 0xFFFC ∧ (3 : Half) = 0 + 3 ∧ (0x20 : Byte) = kindCode .crc32 ∧
    (base 64 true).params.crc32Present = true ∧ (base 64 false).params.crc32Present = false := by decide
theorem witness_DgTxStartRefused :
    0xFFFC < (0xFFFD : Half).toNat ∧ (State.powerOn ⟨64, true, []⟩).txEn = false ∧ (sending .xor 1 0).tx.isOpen = true ∧
    ((0x21 : Byte) ≠ 0x00 ∧ (0x21 : Byte) ≠ 0x01 ∧ (0x21 : Byte) ≠ 0x20) := by decide
theorem witness_SendFrameEmitsTheFrame :
    base.txEn = true ∧ base.tx.isOpen = false ∧ txKindOf base.params 0x20 = some (.crc32, false) ∧
    txKindOf (base 64 false).params 0x20 = some (.xor, true) ∧
    (Pseudo.sendFrame 0x20 [0xAA, 0xBB]).expand = some [.txStart 0x20 2, .txByte 0xAA, .txByte 0xBB] ∧
    (Pseudo.sendFrame 0x00 []).expand = some [.txStart 0x00 0] := by decide
theorem witness_FrameRoundTrip :
    base.txEn = true ∧ base.tx.isOpen = false ∧ txKindOf base.params 0x20 = some (.crc32, false) ∧
    ([0xAA, 0xBB] : List Byte).length < 65536 ∧ receiverReady (base 2) ∧
    ([0xAA, 0xBB] : List Byte).length ≤ (base 2).params.rxCap.toNat ∧ acceptsKind (base 2).params .crc32 := by
  unfold receiverReady acceptsKind; decide
theorem witness_DatagramRoundTrip :
    base.txEn = true ∧ base.tx.isOpen = false ∧ txKindOf (base 64 false).params 0x20 = some (.xor, true) ∧
    ([0x68, 0x69] : List Byte).length ≤ 0xFFFC ∧ receiverReady (base 5) ∧
    ([0x68, 0x69] : List Byte).length + 3 ≤ (base 5).params.rxCap.toNat ∧ acceptsKind (base 5).params .xor := by
  unfold receiverReady acceptsKind; decide

/-! ## Witnesses: control -/

theorem witness_DlvAckReleasesDelivery : delivered.dlv.pending = true ∧ base.dlv.pending = false := by decide
theorem witness_CsrReadShowsFields : State.powerOn ⟨64, true, []⟩ = State.powerOn ⟨64, true, []⟩ := rfl
theorem witness_ReservedCsrIsIllegal : 0x0B ≤ (0x0B : Byte).toNat ∧ 0x0B ≤ (0xFF : Byte).toNat := by decide
theorem witness_CsrWriteElsewhereIsIllegal :
    (0x01 : Byte) ≠ 0x00 ∧ (0x01 : Byte) ≠ 0x02 ∧ (0x0A : Byte) ≠ 0x00 ∧ (0x0A : Byte) ≠ 0x02 := by decide
theorem witness_BufReadReturnsByte :
    (63 : Half).toNat < delivered.params.rxCap.toNat ∧ Memory.get delivered.rxbuf (63 : Half).toNat = none ∧
    (0 : Half).toNat < delivered.params.rxCap.toNat ∧ Memory.get delivered.rxbuf (0 : Half).toNat = some 0xAA ∧
    delivered.params.rxCap.toNat ≤ (64 : Half).toNat := by decide

/-! ## Witnesses: whole-machine rules and invariants -/

theorem witness_EveryInputGivesOneResponse : ∃ t, present (.wireByte .offset0 0x55) base = .next t := ⟨_, rfl⟩
theorem witness_FailedCommandChangesOnlyErr :
    (∃ t, present (encode (.rxByte 0x01)) delivered = .next t ∧ t.responses = delivered.responses ++ [⟨.busy, 0⟩]) ∧
    (∃ t, present (encode (.txByte 0x01)) base = .next t ∧ t.responses = base.responses ++ [⟨.refused, 0⟩]) ∧
    (∃ t, present (.command 0x0A) base = .next t ∧ t.responses = base.responses ++ [⟨.illegal, 0⟩]) :=
  ⟨⟨_, rfl, rfl⟩, ⟨_, rfl, rfl⟩, ⟨_, rfl, rfl⟩⟩
theorem witness_AtMostOneFlagIsRaised :
    ∃ t, present (encode (.csrWrite 0x02 0x7F)) { base with err := 0x7F } = .next t := ⟨_, rfl⟩
theorem witness_DeliveriesDoNotNest :
    (∃ t, exec (.rxByte 0xDD) (receiving .cksumBytes .xor 0 0 0xDD) = .next t ∧
      (receiving .cksumBytes .xor 0 0 0xDD).dlvIrq = false ∧ t.dlvIrq = true) ∧
    (∃ t, exec .dlvAck delivered = .next t ∧ delivered.dlvIrq = true ∧ t.dlvIrq = false) :=
  ⟨⟨_, rfl, by decide⟩, ⟨_, rfl, by decide⟩⟩
theorem witness_DeliveredPayloadIsStable :
    delivered.dlv.pending = true ∧ (∀ i ∈ ([.rxByte 0x01, .csrWrite 0x00 0, .rxByte 0x01] : List Instr), i ≠ .dlvAck ∧ i ≠ .frmReset) ∧
    ∃ t, runInstrs [.rxByte 0x01, .csrWrite 0x00 0, .rxByte 0x01] delivered = .next t :=
  ⟨by decide, by decide, _, rfl⟩
theorem witness_PartialFrameHasNoTimeout :
    (∀ i ∈ ([.nop, .txStart 0x01 1, .csrRead 0x01] : List Instr), lineByte i = none ∧ i ≠ .frmReset) ∧
    ∃ t, runInstrs [.nop, .txStart 0x01 1, .csrRead 0x01] (receiving .payload .xor 3 1 0xAA) = .next t :=
  ⟨by decide, _, rfl⟩
theorem witness_ReceiveIgnoresTransmitState : lineByte .cksumKindXor = some 0x01 := by decide
theorem witness_TransmitIgnoresReceiveState : isTransmit (.dgTxStart 0x00 0 0 0) = true := by decide
theorem witness_WireGrowsByReportedBytes : ∃ t, exec (.txStart 0x01 0) base = .next t := ⟨_, rfl⟩
theorem witness_ParametersNeverChange : ∃ t, step (base.presenting (.command 0)) = .next t := ⟨_, rfl⟩
theorem witness_OnlyTheNamedRulesWriteLatchesAndBuffer :
    ∃ t, exec (.rxByte 0xBB) (receiving .payload .xor 3 1 0xAA (buf := [(0, 0xAA)])) = .next t := ⟨_, rfl⟩

/-- Inside a payload, with a byte stored and a frame open. -/
def busyState : State :=
  { receiving .payload .xor 3 1 0xAA (buf := [(0, 0xAA)]) with tx := ⟨true, .xor, 2, 0x01⟩ }

/-- `MachineInv` holds in a state that is inside a received and a transmitted frame. -/
theorem witness_MachineInv : MachineInv busyState := by
  constructor <;> constructor <;>
    simp +decide [busyState, receiving, base, State.powerOn, Memory.get]

theorem witness_StepKeepsInvariant :
    MachineInv busyState ∧ ∃ t, step busyState = .next t := ⟨witness_MachineInv, _, rfl⟩
theorem witness_ReachableStatesMeetR47 :
    ∃ t, Host.Core.run Sys2Proof.core 2
      { State.powerOn ⟨64, true, []⟩ with hostIn := [.command 0x0000000000030008, .command 0x0000000000000101] } = .next t :=
  ⟨_, rfl⟩
theorem witness_StepIsTotal : MachineInv busyState := witness_MachineInv
theorem witness_FaultsOnlyInIllFormedStates :
    ((sending .xor 0 0).txEn = true ∧ (sending .xor 0 0).tx.isOpen = true ∧ (sending .xor 0 0).tx.remain = 0) ∧
    (awake (receiving .payload .xor 9 3 (cap := 2)) = true ∧ (receiving .payload .xor 9 3 (cap := 2)).rx.state = .payload ∧
      (receiving .payload .xor 9 3 (cap := 2)).params.rxCap.toNat < (receiving .payload .xor 9 3 (cap := 2)).rx.count.toNat) ∧
    (awake (receiving .cksumBytes .xor 3 3 (ck := 7)) = true ∧ (receiving .cksumBytes .xor 3 3 (ck := 7)).rx.ckCount.toNat = 7) ∧
    (awake (receiving .cksumBytes .xor 3 3 (cap := 2)) = true ∧
      (receiving .cksumBytes .xor 3 3 (cap := 2)).rx.ckCount.toNat < 7 ∧ trailerWidth .xor ≤ 0 + 1 ∧
      (0 ||| ((0 : Byte).setWidth 32 <<< (8 * 0)) : Word) = accFinal .xor 0 ∧
      3 ≤ (receiving .cksumBytes .xor 3 3 (cap := 2)).rx.len.toNat ∧
      (receiving .cksumBytes .xor 3 3 (cap := 2)).params.rxCap.toNat < 3) ∧
    ∃ f, exec (.txByte 0) (sending .xor 0 0) = .fault f := ⟨by decide, by decide, by decide, by decide, _, rfl⟩

theorem witness_ResponseBytesAreLittleEndian :
    encode (.csrWrite 0x00 0xFFFFFFFD) = .command 0x0000FFFFFFFD0008 := by rfl

end Sys2Proof.Tests
end

section
/-! PROOF. Scope of the block (spec 00_scope.md): what a step runs (O6), the parameters are fixed (O52), and the model
stops in ill-formed states alone (O59). -/

namespace Sys2Proof.Machine

/-! ## What the block runs -/

/-- A received byte that is no wire symbol at its place arrives as `RX_BYTE` (20_memory.md R61). -/
theorem present_wireByte_of_error {place : FramePlace} {b : Byte} {e : Rejection} (s : State)
    (h : decodeSymbol place b = .error e) : present (.wireByte place b) s = exec (.rxByte b) s := by
  simp only [present, decode, h]
  rfl

/-- A word that is no instruction runs the illegal step (30_encoding.md R89, R90). -/
theorem present_command_of_error {w : CmdWord} {e : Rejection} (s : State) (h : decodeWord w = .error e) :
    present (.command w) s = .next s.illegal := by
  simp only [present, decode, h]
  rfl

/-- Whatever is presented runs an instruction or the illegal step (44_control.md R209). -/
theorem present_cases (x : HostInput) (s : State) :
    (∃ i, present x s = exec i s) ∨ present x s = .next s.illegal := by
  cases hd : decode x with
  | ok i => exact .inl ⟨i, present_of_decode s hd⟩
  | error e =>
    cases x with
    | command w => exact .inr (present_command_of_error s hd)
    | wireByte place b => exact .inl ⟨.rxByte b, present_wireByte_of_error s hd⟩

/-- Settles O6: a step takes the head of the queue, and what it decodes to runs. -/
theorem stepRunsWhatIsPresented : Obligations.StepRunsWhatIsPresented := by
  refine ⟨fun s x rest i hq hd => ?_, fun s place b rest e hq hd => ?_, fun s hq => step_of_nil hq⟩
  · rw [step_of_cons hq, present_of_decode _ hd]
  · rw [step_of_cons hq, present_wireByte_of_error _ hd]

/-! ## The parameters -/

/-- No receive rule writes the parameters. -/
theorem RxOutcome.params_eq {b : Byte} {s t : State} (h : RxOutcome b s t) : t.params = s.params := by
  cases h <;> rfl

/-- No instruction writes the parameters. -/
theorem ExecOutcome.params_eq {i : Instr} {s t : State} (h : ExecOutcome i s t) : t.params = s.params := by
  cases h
  case received h => exact h.params_eq
  all_goals rfl

theorem present_params {x : HostInput} {s t : State} (h : present x s = .next t) : t.params = s.params := by
  rcases present_cases x s with ⟨i, e⟩ | e <;> rw [e] at h
  · exact (exec_next h).params_eq
  · cases h
    rfl

/-- Settles O52: every rule's next state has the parameters it began with, and taking an input off the queue keeps
them too. -/
theorem parametersNeverChange : Obligations.ParametersNeverChange := by
  intro s t h
  cases hq : s.hostIn with
  | nil =>
    rw [step_of_nil hq] at h
    cases h
    rfl
  | cons x rest =>
    rw [step_of_cons hq] at h
    exact (present_params h).trans rfl

/-! ## The model's own stops -/

/-- The four kinds of state in which a rule's own precondition fails (assumption log 7). -/
inductive IllFormed (s : State) : Prop
  /-- `PAYLOAD` would store at an address that the buffer does not have (20_memory.md R60). -/
  | storeOutside (hs : s.rx.state = .payload) (h : s.params.rxCap.toNat < s.rx.count.toNat)
  /-- `CK_COUNT + 1` does not fit (00_scope.md R8). -/
  | trailerFull (hs : s.rx.state = .cksumBytes) (h : s.rx.ckCount.toNat = 7)
  /-- The datagram parse would read an address that the buffer does not have (20_memory.md R60). -/
  | parseOutside (hs : s.rx.state = .cksumBytes) (hl : 3 ≤ s.rx.len.toNat) (hc : s.params.rxCap.toNat < 3)
  /-- `TX_REMAIN - 1` does not fit (00_scope.md R8). -/
  | nothingOwed (ho : s.tx.isOpen = true) (hr : s.tx.remain = 0)

/-- The invariant excludes each kind by the item named in the proof (R47 items 1 and 5, R27, R116 with R118). -/
theorem IllFormed.not_machineInv {s : State} (h : IllFormed s) : ¬ MachineInv s := by
  rintro ⟨inv, seq⟩
  have hcap := inv.count_le_cap
  cases h with
  | storeOutside hs h => omega
  | trailerFull hs h =>
    have hck := seq.ck_count_le
    omega
  | parseOutside hs hl hc =>
    have hlen := seq.trailer_len hs
    rw [hlen] at hcap
    omega
  | nothingOwed ho hr =>
    have hpos := inv.tx_open.1 ho
    rw [hr] at hpos
    exact absurd hpos (by decide)

/-- What an outcome from `s` can be: a next state, or a fault that an ill-formed `s` explains; never a refusal. -/
inductive NextOrIllFormed (s : State) : Res → Prop
  | next (t : State) : NextOrIllFormed s (.next t)
  | fault (f : Fault) (h : IllFormed s) : NextOrIllFormed s (.fault f)

/-- The end of a payload answers a next state where a parse stays inside the buffer. -/
theorem afterPayload_next (s : State) (h : s.rx.len.toNat < 3 ∨ 3 ≤ s.params.rxCap.toNat) :
    ∃ t, afterPayload s = .next t := by
  by_cases hk : s.rx.kind = .none
  · exact ⟨_, (afterPayload_none hk).trans (deliver_eq s h)⟩
  · exact ⟨_, afterPayload_trailer hk⟩

/-- `LEN_MSB` never stops: what it delivers has length 0. -/
theorem rxLenMsb_next (b : Byte) (s : State) : ∃ t, rxLenMsb b s = .next t := by
  unfold rxLenMsb
  dsimp only
  split
  · exact ⟨_, rfl⟩
  next hz => exact afterPayload_next _ (.inl (by dsimp only; omega))

/-- `PAYLOAD` stops only at a store outside: a frame whose last byte fits the buffer has its header bytes there too. -/
theorem rxPayload_nextOrIllFormed (b : Byte) {s : State} (hs : s.rx.state = .payload) :
    NextOrIllFormed s (rxPayload b s) := by
  rcases Nat.lt_trichotomy s.rx.count.toNat s.params.rxCap.toNat with hlt | heq | hgt
  · rw [rxPayload_store hlt]
    split
    next hlast =>
      have hfit : s.rx.len.toNat < 3 ∨ 3 ≤ s.params.rxCap.toNat := by
        rw [← hlast]
        bv_omega
      obtain ⟨t, ht⟩ := afterPayload_next (storedState s b) hfit
      exact ht ▸ .next t
    · exact .next _
  · rw [rxPayload_overflow (BitVec.eq_of_toNat_eq heq)]
    exact .next _
  · rw [rxPayload_outside hgt]
    exact .fault _ (.storeOutside hs hgt)

/-- `CKSUM_BYTES` stops only with `CK_COUNT` full or where a matching trailer delivers outside the buffer. -/
theorem rxCksum_nextOrIllFormed (b : Byte) {s : State} (hs : s.rx.state = .cksumBytes) :
    NextOrIllFormed s (rxCksum b s) := by
  have hck := s.rx.ckCount.isLt
  by_cases h7 : s.rx.ckCount.toNat = 7
  · rw [rxCksum_full h7]
    exact .fault _ (.trailerFull hs h7)
  by_cases hw : s.rx.ckCount.toNat + 1 < trailerWidth s.rx.kind
  · rw [rxCksum_more hw]
    exact .next _
  rw [rxCksum_last (by omega) (by omega)]
  split
  · rcases deliver_cases (collectedState s b) with ⟨-, e⟩ | ⟨hl, hc, a, e⟩ <;> rw [e]
    · exact .next _
    · exact .fault _ (.parseOutside hs hl hc)
  · exact .next _

theorem receiveByte_nextOrIllFormed (b : Byte) (s : State) : NextOrIllFormed s (receiveByte b s) := by
  rcases receiveByte_cases b s with ⟨-, e⟩ | ⟨-, -, e⟩ |
    ⟨-, -, ⟨-, e⟩ | ⟨-, e⟩ | ⟨-, e⟩ | ⟨-, e⟩ | ⟨hs, e⟩ | ⟨hs, e⟩⟩ <;> rw [e]
  · exact .next _
  · exact .next _
  · exact .next _
  · exact .next _
  · exact .next _
  · obtain ⟨t, ht⟩ := rxLenMsb_next b s
    exact ht ▸ .next t
  · exact rxPayload_nextOrIllFormed b hs
  · exact rxCksum_nextOrIllFormed b hs

theorem execTxByte_nextOrIllFormed (b : Byte) (s : State) : NextOrIllFormed s (execTxByte b s) := by
  by_cases href : s.txEn = false ∨ s.tx.isOpen = false
  · rw [execTxByte_refused b href]
    exact .next _
  · obtain ⟨hen, hopen⟩ : s.txEn = true ∧ s.tx.isOpen = true := by simpa using href
    by_cases hr : s.tx.remain = 0
    · rw [execTxByte_underflow b hen hopen hr]
      exact .fault _ (.nothingOwed hopen hr)
    · rw [execTxByte_accepted b hen hopen hr]
      exact .next _

/-- Every instruction, from every state: only a received byte and `TX_BYTE` can stop. -/
theorem exec_nextOrIllFormed (i : Instr) (s : State) : NextOrIllFormed s (exec i s) := by
  cases hb : lineByte i with
  | some b =>
    rw [exec_of_lineByte s hb]
    exact receiveByte_nextOrIllFormed b s
  | none =>
    cases i
    case txByte b => exact execTxByte_nextOrIllFormed b s
    case txStart kind len =>
      rw [exec_txStart, execTxStart]
      split <;> exact .next _
    case dgTxStart kind session type bodyLen =>
      rw [exec_dgTxStart, execDgTxStart]
      split
      · exact .next _
      · split <;> exact .next _
    case csrRead csr =>
      rw [exec_csrRead, execCsrRead]
      split <;> exact .next _
    case rxByte | sof | cksumKindNone | cksumKindXor | cksumKindCrc32 => cases hb
    all_goals exact .next _

theorem not_machineInv_of_exec_fault {i : Instr} {s : State} {f : Fault} (h : exec i s = .fault f) :
    ¬ MachineInv s := by
  have ho := exec_nextOrIllFormed i s
  rw [h] at ho
  cases ho with
  | fault _ hs => exact hs.not_machineInv

theorem exec_ne_refused (i : Instr) (s : State) (r : Refusal) : exec i s ≠ .refused r := by
  intro h
  have ho := exec_nextOrIllFormed i s
  rw [h] at ho
  cases ho

/-- A trailer that matches in a buffer too short for the parse stops at an address outside the buffer. -/
theorem rxCksum_parseOutside {s : State} {b : Byte} (h7 : s.rx.ckCount.toNat < 7)
    (hw : trailerWidth s.rx.kind ≤ s.rx.ckCount.toNat + 1)
    (he : (collectedState s b).rx.ckRecv = accFinal s.rx.kind s.rx.acc)
    (hl : 3 ≤ s.rx.len.toNat) (hc : s.params.rxCap.toNat < 3) :
    ∃ a, s.params.rxCap.toNat ≤ a ∧ rxCksum b s = .fault (.noSuchBufferByte a) := by
  obtain ⟨a, ha, hout⟩ := deliver_fault (collectedState s b) hl hc
  exact ⟨a, hout, by rw [rxCksum_last h7 hw, if_pos he, ha]⟩

/-- Settles O59: each stop by the equation of its rule, and every fault traced back to an ill-formed state. -/
theorem faultsOnlyInIllFormedStates : Obligations.FaultsOnlyInIllFormedStates := by
  refine ⟨fun s b hen hopen hr => ?_, fun s b hen hp hs hc => ?_, fun s b hen hp hs h7 => ?_,
    fun s b hen hp hs h7 hw he hl hc => ?_, fun i s f h => not_machineInv_of_exec_fault h, exec_ne_refused⟩
  · rw [exec_txByte, execTxByte_underflow b hen hopen hr]
  · rw [exec_rxByte, receiveByte_payload hen hp hs, rxPayload_outside hc]
  · rw [exec_rxByte, receiveByte_cksum hen hp hs, rxCksum_full h7]
  · rw [exec_rxByte, receiveByte_cksum hen hp hs]
    exact rxCksum_parseOutside h7 hw he hl hc

end Sys2Proof.Machine
end

section
/-! PROOF. The state (spec 10_state.md): the invariant of R47 and its induction (O54, O55, O56), which rules write the
enables, the latches and the buffer (O53), and what the CSRs show (O37, O38). -/

namespace Sys2Proof.Machine

/-! ## The invariant by parts

`MachineInv` speaks of the receive sequencer, the buffer, the two latches and the transmit sequencer. Each part below is
a predicate of those fields alone, so a rule that leaves them alone keeps the part as it is. -/

/-- What holds in each state of the receive sequencer (R22, R47 items 2 to 4). -/
inductive RxPhase (p : Params) (buf : Memory) (rx : RxSeq) : Prop
  /-- Between frames. -/
  | idle (hs : rx.state = .idle)
  /-- After SOF, with no kind yet (R113). -/
  | kindAwaited (hs : rx.state = .cksumType) (hcount : rx.count = 0) (hck : rx.ckCount = 0 ∧ rx.ckRecv = 0)
  /-- In the length bytes: the kind has been accepted, nothing is stored (R114 to R116). -/
  | lengthAwaited (hs : rx.state = .lenLsb ∨ rx.state = .lenMsb) (hkind : acceptsKind p rx.kind)
      (hcount : rx.count = 0) (hck : rx.ckCount = 0 ∧ rx.ckRecv = 0)
  /-- In the payload: bytes are owed, and those so far are stored (R118). -/
  | payload (hs : rx.state = .payload) (hkind : acceptsKind p rx.kind) (hcount : rx.count.toNat < rx.len.toNat)
      (hck : rx.ckCount = 0 ∧ rx.ckRecv = 0) (hacc : rx.kind = .xor → rx.acc.toNat < 256)
      (hbuf : ∀ a < rx.count.toNat, (Memory.get buf a).isSome = true)
  /-- In the trailer: the payload is complete, trailer bytes are owed (R116, R118, R119). -/
  | trailer (hs : rx.state = .cksumBytes) (hkind : acceptsKind p rx.kind) (hcount : rx.count = rx.len)
      (hck : rx.kind ≠ .none ∧ rx.ckCount.toNat < trailerWidth rx.kind) (hacc : rx.kind = .xor → rx.acc.toNat < 256)
      (hbuf : ∀ a < rx.count.toNat, (Memory.get buf a).isSome = true)

/-- The facts about the receive sequencer. -/
structure RxInv (p : Params) (buf : Memory) (rx : RxSeq) : Prop where
  count_le_cap : rx.count.toNat ≤ p.rxCap.toNat
  ck_count_le : rx.ckCount.toNat ≤ 4
  phase : RxPhase p buf rx

/-- The facts about the buffer (20_memory.md R60). -/
structure BufInv (p : Params) (buf : Memory) : Prop where
  wf : Memory.wf buf = true
  in_cap : ∀ a, (Memory.get buf a).isSome = true → a < p.rxCap.toNat

/-- The facts about the datagram header latch and the length it was parsed under (R29, R47 item 6, 43_datagram.md
R185). -/
structure DgInv (p : Params) (len : Half) (dg : DgLatch) : Prop where
  ok : dg.ok = true → 3 ≤ len.toNat ∧ dg.bodyLen.toNat = len.toNat - 3
  short : dg.ok = false → dg.session = 0 ∧ dg.type = 0 ∧ dg.bodyLen = 0
  hsk : dg.isHsk = (dg.ok && p.hskTypes.contains dg.type)

/-- The facts about a pending delivery (R47 item 7, 43_datagram.md R180). -/
def PendingInv (buf : Memory) (st : RxState) (dlv : DeliveryLatch) : Prop :=
  dlv.pending = true → st = .idle ∧ ∀ a < dlv.len.toNat, (Memory.get buf a).isSome = true

/-- The facts about the transmit sequencer (R47 item 5, 41_frame_tx.md R143, 42_checksum.md R162). -/
structure TxInv (p : Params) (tx : TxSeq) : Prop where
  isOpen : tx.isOpen = true ↔ 0 < tx.remain.toNat
  kind : acceptsKind p tx.kind
  acc : tx.kind = .xor → tx.acc.toNat < 256

section Parts
variable {s : State}

theorem MachineInv.rxInv (h : MachineInv s) : RxInv s.params s.rxbuf s.rx := by
  obtain ⟨inv, seq⟩ := h
  refine ⟨inv.count_le_cap, seq.ck_count_le, ?_⟩
  cases hs : s.rx.state with
  | idle => exact .idle hs
  | cksumType => exact .kindAwaited hs (seq.header_count (by simp [hs])) (seq.no_trailer_yet (by simp [hs]))
  | lenLsb | lenMsb =>
    exact .lengthAwaited (by simp [hs]) (inv.kind_accepted (by simp [hs])) (seq.header_count (by simp [hs]))
      (seq.no_trailer_yet (by simp [hs]))
  | payload =>
    exact .payload hs (inv.kind_accepted (by simp [hs])) (inv.payload_count hs) (seq.no_trailer_yet (by simp [hs]))
      (seq.xor_acc (.inl hs)) (seq.frame_written (.inl hs))
  | cksumBytes =>
    exact .trailer hs (inv.kind_accepted (by simp [hs])) (seq.trailer_len hs) (inv.trailer_count hs)
      (seq.xor_acc (.inr hs)) (seq.frame_written (.inr hs))

theorem MachineInv.bufInv (h : MachineInv s) : BufInv s.params s.rxbuf :=
  ⟨h.sequencer.buf_wf, h.sequencer.buf_in_cap⟩

theorem MachineInv.dgInv (h : MachineInv s) : DgInv s.params s.dlv.len s.dg :=
  ⟨h.state_invariants.dg_ok, h.sequencer.dg_short, h.sequencer.dg_hsk⟩

theorem MachineInv.pendingInv (h : MachineInv s) : PendingInv s.rxbuf s.rx.state s.dlv :=
  fun hp => ⟨h.state_invariants.pending_idle hp, h.sequencer.delivered_written hp⟩

theorem MachineInv.txInv (h : MachineInv s) : TxInv s.params s.tx :=
  ⟨h.state_invariants.tx_open, h.sequencer.tx_kind, h.sequencer.tx_xor_acc⟩

/-- The parts together are the invariant: in each receive state the items of R47 that speak of it are its phase's
facts, and the others are about another state. -/
theorem MachineInv.of_parts (hrx : RxInv s.params s.rxbuf s.rx) (hbuf : BufInv s.params s.rxbuf)
    (hdg : DgInv s.params s.dlv.len s.dg) (hp : PendingInv s.rxbuf s.rx.state s.dlv) (htx : TxInv s.params s.tx) :
    MachineInv s := by
  obtain ⟨hcap, hck4, hphase⟩ := hrx
  rcases hphase with hs | ⟨hs, hcount, hck⟩ | ⟨hs | hs, hkind, hcount, hck⟩ | ⟨hs, hkind, hcount, hck, hacc, hw⟩ |
    ⟨hs, hkind, hcount, hck, hacc, hw⟩
  all_goals
    refine ⟨⟨hcap, ?_, ?_, ?_, htx.isOpen, hdg.ok, fun h => (hp h).1⟩,
      ⟨?_, ?_, ?_, hck4, ?_, hbuf.wf, hbuf.in_cap, ?_, fun h => (hp h).2, hdg.short, hdg.hsk, htx.kind, htx.acc⟩⟩ <;>
        simp_all [acceptsKind]

/-- A response is no part of the invariant. -/
theorem MachineInv.respond (inv : MachineInv s) (st : Status) (d : Word) : MachineInv (s.respond st d) :=
  .of_parts inv.rxInv inv.bufInv inv.dgInv inv.pendingInv inv.txInv

/-- What the host presents is no part of the invariant. -/
theorem MachineInv.hostIn (inv : MachineInv s) (ins : List HostInput) : MachineInv { s with hostIn := ins } :=
  .of_parts inv.rxInv inv.bufInv inv.dgInv inv.pendingInv inv.txInv

end Parts

/-! ## The transmit rules -/

/-- A running XOR accumulator starts below 256 (42_checksum.md R161). -/
theorem accInit_xor_lt {k : CksumKind} (h : k = .xor) : (accInit k).toNat < 256 := by
  subst h
  decide

/-- `CRC32` is chosen for a transmitted frame only where it is present (41_frame_tx.md R143). -/
theorem acceptsKind_of_txKindOf {p : Params} {b : Byte} {k : CksumKind} {d : Bool} (h : txKindOf p b = some (k, d)) :
    acceptsKind p k := by
  rintro rfl
  unfold txKindOf at h
  split at h
  · by_contra hp
    simp [hp] at h
  next _ hne _ =>
    cases h
    exact absurd rfl hne
  · cases h

/-- A start leaves a frame open exactly where it owes bytes. -/
theorem machineInv_startedState {s : State} {kind : Byte} {k : CksumKind} {d : Bool} (inv : MachineInv s) (len : Half)
    (h : txStartKind s kind = some (k, d)) : MachineInv (startedState s k d len) := by
  obtain ⟨-, -, hk⟩ := txStartKind_eq_some.1 h
  have htx : TxInv s.params { kind := k, acc := accInit k, remain := len, isOpen := decide (len ≠ 0) } := by
    refine ⟨?_, acceptsKind_of_txKindOf hk, accInit_xor_lt⟩
    rw [decide_eq_true_eq]
    bv_omega
  exact .of_parts inv.rxInv inv.bufInv inv.dgInv inv.pendingInv htx

/-- A body byte that is owed leaves the frame open exactly while more are owed. -/
theorem machineInv_bodyState {s : State} (inv : MachineInv s) (b : Byte) (hr : s.tx.remain ≠ 0) :
    MachineInv (bodyState s b) := by
  obtain ⟨hopen, hkind, hacc⟩ := inv.txInv
  refine .of_parts inv.rxInv inv.bufInv inv.dgInv inv.pendingInv ⟨?_, hkind, fun hx => ?_⟩
  · have hpos : s.tx.isOpen = true := hopen.2 (by bv_omega)
    simp only [bodyState, hpos, Bool.true_and, decide_eq_true_eq]
    bv_omega
  · change s.tx.kind = .xor at hx
    simp only [bodyState, hx]
    exact accUpdate_xor_lt _ _ (hacc hx)

/-- The datagram header is three body bytes of a frame that owes at least three (43_datagram.md R186). -/
theorem machineInv_dgStarted {s : State} {kind : Byte} {k : CksumKind} {d : Bool} {bodyLen : Half} (inv : MachineInv s)
    (b₀ b₁ b₂ : Byte) (hb : bodyLen.toNat ≤ 0xFFFC) (h : txStartKind s kind = some (k, d)) :
    MachineInv (bodyState (bodyState (bodyState (startedState s k d (bodyLen + 3)) b₀) b₁) b₂) := by
  have h₀ : bodyLen + 3 ≠ 0 := by bv_omega
  have h₁ : bodyLen + 3 - 1 ≠ 0 := by bv_omega
  have h₂ : bodyLen + 3 - 1 - 1 ≠ 0 := by bv_omega
  have inv₀ := machineInv_bodyState (machineInv_startedState inv _ h) b₀ h₀
  exact machineInv_bodyState (machineInv_bodyState inv₀ b₁ h₁) b₂ h₂

/-! ## The receive rules -/

/-- The receiver accepts `CRC32` only where it is present (40_frame_rx.md R114). -/
theorem acceptsKind_of_rxKindOf {p : Params} {b : Byte} {k : CksumKind} (h : rxKindOf p b = some k) :
    acceptsKind p k := by
  rintro rfl
  unfold rxKindOf at h
  split at h
  · by_contra hp
    simp [hp] at h
  next hne => exact absurd h hne

/-- A byte stored inside the buffer keeps the buffer's form (20_memory.md R60). -/
theorem BufInv.set {p : Params} {buf : Memory} {a : Nat} (h : BufInv p buf) (v : Byte) (ha : a < p.rxCap.toNat) :
    BufInv p (Memory.set buf a v) := by
  refine ⟨Memory.wf_set buf a v h.wf, fun x hx => ?_⟩
  rw [Memory.get_set] at hx
  split at hx
  next hxa => exact hxa ▸ ha
  · exact h.in_cap x hx

/-- A store at the end of what has been written extends it by one byte (R118). -/
theorem written_set {buf : Memory} {n : Nat} (v : Byte) (h : ∀ a < n, (Memory.get buf a).isSome = true) :
    ∀ a < n + 1, (Memory.get (Memory.set buf n v) a).isSome = true := by
  intro a ha
  rw [Memory.get_set]
  split
  · rfl
  · exact h a (by omega)

/-- With no delivery pending, the facts about one ask nothing. -/
theorem pendingInv_of_not_pending {buf : Memory} {st : RxState} {dlv : DeliveryLatch} (h : dlv.pending = false) :
    PendingInv buf st dlv := by
  simp [PendingInv, h]

/-- The datagram parse sets the latch as the delivered length says (43_datagram.md R180 to R185). -/
theorem dgInv_deliveredState (s : State) : DgInv s.params s.rx.len (deliveredState s).dg := by
  unfold deliveredState
  by_cases h3 : s.rx.len.toNat < 3
  · constructor <;> simp [h3]
  · have hlen : (s.rx.len - 3).toNat = s.rx.len.toNat - 3 := by bv_omega
    simp only [if_neg h3]
    exact ⟨fun _ => ⟨by omega, hlen⟩, by simp, by simp⟩

/-- A delivery keeps the invariant where every byte that it delivers has been written (R126). -/
theorem machineInv_deliveredState {s : State} (hcap : s.rx.count.toNat ≤ s.params.rxCap.toNat)
    (hck : s.rx.ckCount.toNat ≤ 4) (hbuf : BufInv s.params s.rxbuf) (htx : TxInv s.params s.tx)
    (hw : ∀ a < s.rx.len.toNat, (Memory.get s.rxbuf a).isSome = true) : MachineInv (deliveredState s) :=
  .of_parts ⟨hcap, hck, .idle rfl⟩ hbuf (dgInv_deliveredState s) (fun _ => ⟨rfl, hw⟩) htx

section StoredAndCollected
variable {s : State} (b : Byte)

/-- `RX_COUNT + 1` fits wherever a byte is stored (00_scope.md R8). -/
theorem storedState_count (hc : s.rx.count.toNat < s.params.rxCap.toNat) :
    (storedState s b).rx.count.toNat = s.rx.count.toNat + 1 := by
  simp only [storedState]
  bv_omega

/-- A stored byte that is not the last leaves bytes owed (R118). -/
theorem storedState_count_lt (hlt : s.rx.count.toNat < s.rx.len.toNat) (hl : s.rx.count + 1 ≠ s.rx.len) :
    (storedState s b).rx.count.toNat < (storedState s b).rx.len.toNat := by
  simp only [storedState]
  bv_omega

theorem storedState_written (hc : s.rx.count.toNat < s.params.rxCap.toNat)
    (hw : ∀ a < s.rx.count.toNat, (Memory.get s.rxbuf a).isSome = true) :
    ∀ a < (storedState s b).rx.count.toNat, (Memory.get (storedState s b).rxbuf a).isSome = true := by
  rw [storedState_count b hc]
  exact written_set b hw

theorem storedState_acc (hacc : s.rx.kind = .xor → s.rx.acc.toNat < 256) (hk : s.rx.kind = .xor) :
    (storedState s b).rx.acc.toNat < 256 := by
  simp only [storedState, hk]
  exact accUpdate_xor_lt _ _ (hacc hk)

/-- `CK_COUNT + 1` fits wherever a trailer byte is owed (00_scope.md R8). -/
theorem collectedState_ckCount (h : s.rx.ckCount.toNat < trailerWidth s.rx.kind) :
    (collectedState s b).rx.ckCount.toNat = s.rx.ckCount.toNat + 1 := by
  have hwidth := trailerWidth_le s.rx.kind
  simp only [collectedState, BitVec.toNat_ofNat]
  omega

theorem collectedState_ckCount_le (h : s.rx.ckCount.toNat < trailerWidth s.rx.kind) :
    (collectedState s b).rx.ckCount.toNat ≤ 4 :=
  (collectedState_ckCount b h).trans_le (h.trans_le (trailerWidth_le s.rx.kind))

end StoredAndCollected

/-- The trailer is owed in full when the payload is complete (R116, R118). -/
theorem trailer_owed {rx : RxSeq} (hk : rx.kind ≠ .none) (hck : rx.ckCount = 0) :
    rx.kind ≠ .none ∧ rx.ckCount.toNat < trailerWidth rx.kind := by
  refine ⟨hk, ?_⟩
  rw [hck]
  exact Nat.pos_of_ne_zero (mt (trailerWidth_eq_zero _).1 hk)

/-- A received byte: the rule that decides it leads from the phase of its state to the phase of the next one. -/
theorem RxOutcome.machineInv {b : Byte} {s t : State} (h : RxOutcome b s t) (inv : MachineInv s) : MachineInv t := by
  have hbuf := inv.bufInv
  have hdg := inv.dgInv
  have hpend := inv.pendingInv
  have htx := inv.txInv
  obtain ⟨hcap, hck4, hphase⟩ := inv.rxInv
  obtain ⟨items, seq⟩ := inv
  cases h
  case discarded | busy | ignored => exact .of_parts ⟨hcap, hck4, hphase⟩ hbuf hdg hpend htx
  case badKind hp _ _ | overflow hp _ _ =>
    exact .of_parts ⟨hcap, hck4, .idle rfl⟩ hbuf hdg (pendingInv_of_not_pending hp) htx
  case sof hp hs hb =>
    exact .of_parts ⟨Nat.zero_le _, Nat.zero_le _, .kindAwaited rfl rfl ⟨rfl, rfl⟩⟩ hbuf hdg
      (pendingInv_of_not_pending hp) htx
  case kind hp hs k hk =>
    have hcount := seq.header_count (.inl hs)
    have hck := seq.no_trailer_yet (.inl hs)
    refine .of_parts ⟨hcap, hck4, ?_⟩ hbuf hdg (pendingInv_of_not_pending hp) htx
    exact .lengthAwaited (.inl rfl) (acceptsKind_of_rxKindOf hk) hcount hck
  case lenLsb hp hs =>
    have hcount := seq.header_count (.inr (.inl hs))
    have hck := seq.no_trailer_yet (.inr (.inl hs))
    refine .of_parts ⟨hcap, hck4, ?_⟩ hbuf hdg (pendingInv_of_not_pending hp) htx
    exact .lengthAwaited (.inr rfl) (items.kind_accepted (.inl hs)) hcount hck
  case lenMsb hp hs len hl hpos =>
    have hcount := seq.header_count (.inr (.inr hs))
    have hck := seq.no_trailer_yet (.inr (.inr (.inl hs)))
    refine .of_parts ⟨hcap, hck4, ?_⟩ hbuf hdg (pendingInv_of_not_pending hp) htx
    exact .payload rfl (items.kind_accepted (.inr (.inl hs))) (by simpa [hcount] using hpos) hck accInit_xor_lt
      (by simp [hcount])
  case emptyTrailer hp hs hl hk =>
    have hcount := seq.header_count (.inr (.inr hs))
    have hck := seq.no_trailer_yet (.inr (.inr (.inl hs)))
    refine .of_parts ⟨hcap, hck4, ?_⟩ hbuf hdg (pendingInv_of_not_pending hp) htx
    exact .trailer rfl (items.kind_accepted (.inr (.inl hs))) hcount (trailer_owed hk hck.1) accInit_xor_lt
      (by simp [hcount])
  case emptyDelivered hp hs hl hk =>
    exact machineInv_deliveredState hcap hck4 hbuf htx (fun a ha => absurd ha (Nat.not_lt_zero a))
  case stored hp hs hc hl =>
    have hck := seq.no_trailer_yet (.inr (.inr (.inr hs)))
    refine .of_parts ⟨(storedState_count b hc).trans_le hc, hck4, ?_⟩ (hbuf.set b hc) hdg
      (pendingInv_of_not_pending hp) htx
    have hlt := storedState_count_lt b (items.payload_count hs) hl
    exact .payload hs (items.kind_accepted (.inr (.inr (.inl hs)))) hlt hck
      (storedState_acc b (seq.xor_acc (.inl hs))) (storedState_written b hc (seq.frame_written (.inl hs)))
  case storedLast hp hs hc hl hk =>
    have hck := seq.no_trailer_yet (.inr (.inr (.inr hs)))
    refine .of_parts ⟨(storedState_count b hc).trans_le hc, hck4, ?_⟩ (hbuf.set b hc) hdg
      (pendingInv_of_not_pending hp) htx
    exact .trailer rfl (items.kind_accepted (.inr (.inr (.inl hs)))) hl (trailer_owed hk hck.1)
      (storedState_acc b (seq.xor_acc (.inl hs))) (storedState_written b hc (seq.frame_written (.inl hs)))
  case storedDelivered hp hs hc hl hk =>
    have hw := storedState_written b hc (seq.frame_written (.inl hs))
    have hlen : (storedState s b).rx.count = (storedState s b).rx.len := hl
    exact machineInv_deliveredState ((storedState_count b hc).trans_le hc) hck4 (hbuf.set b hc) htx (hlen ▸ hw)
  case collected hp hs hw =>
    obtain ⟨hk, hlt⟩ := items.trailer_count hs
    refine .of_parts ⟨hcap, collectedState_ckCount_le b hlt, ?_⟩ hbuf hdg (pendingInv_of_not_pending hp) htx
    exact .trailer hs (items.kind_accepted (.inr (.inr (.inr hs)))) (seq.trailer_len hs)
      ⟨hk, (collectedState_ckCount b hlt).trans_lt hw⟩ (seq.xor_acc (.inr hs)) (seq.frame_written (.inr hs))
  case matched hp hs h7 hw he hc =>
    obtain ⟨-, hlt⟩ := items.trailer_count hs
    have hck := collectedState_ckCount_le b hlt
    exact machineInv_deliveredState hcap hck hbuf htx (seq.trailer_len hs ▸ seq.frame_written (.inr hs))
  case mismatched hp hs h7 hw he =>
    obtain ⟨-, hlt⟩ := items.trailer_count hs
    have hck := collectedState_ckCount_le b hlt
    exact .of_parts ⟨hcap, hck, .idle rfl⟩ hbuf hdg (pendingInv_of_not_pending hp) htx

/-! ## Every step -/

/-- Every instruction keeps the invariant: the receive rules by their phases, the transmit starts and bytes by the
transmit part, `DLV_ACK` and `FRM_RESET` by ending what was pending; the others touch no field it speaks of. -/
theorem ExecOutcome.machineInv {i : Instr} {s t : State} (h : ExecOutcome i s t) (inv : MachineInv s) :
    MachineInv t := by
  have hrx := inv.rxInv
  have hbuf := inv.bufInv
  have hdg := inv.dgInv
  have hpend := inv.pendingInv
  have htx := inv.txInv
  cases h
  case received h => exact h.machineInv inv
  case txStart hk => exact (machineInv_startedState inv _ hk).respond _ _
  case txByte hr => exact (machineInv_bodyState inv _ hr).respond _ _
  case dgTxStart hb hk => exact (machineInv_dgStarted inv _ _ _ hb hk).respond _ _
  case dlvAck => exact .of_parts hrx hbuf hdg (pendingInv_of_not_pending rfl) htx
  case frmReset =>
    have hrx' : RxInv s.params s.rxbuf { } := ⟨Nat.zero_le _, Nat.zero_le _, .idle rfl⟩
    have htx' : TxInv s.params { } := ⟨by decide, by simp [acceptsKind], by decide⟩
    exact .of_parts hrx' hbuf hdg (pendingInv_of_not_pending rfl) htx'
  all_goals exact .of_parts hrx hbuf hdg hpend htx

theorem present_machineInv {x : HostInput} {s t : State} (h : present x s = .next t) (inv : MachineInv s) :
    MachineInv t := by
  rcases present_cases x s with ⟨i, e⟩ | e <;> rw [e] at h
  · exact (exec_next h).machineInv inv
  · cases h
    exact .of_parts inv.rxInv inv.bufInv inv.dgInv inv.pendingInv inv.txInv

/-- Settles O55: a step with nothing presented stays where it is, and every other one runs an instruction or the illegal
step, which keep each part of the invariant. -/
theorem stepKeepsInvariant : Obligations.StepKeepsInvariant := by
  intro s t inv h
  cases hq : s.hostIn with
  | nil =>
    rw [step_of_nil hq] at h
    cases h
    exact inv
  | cons x rest =>
    rw [step_of_cons hq] at h
    exact present_machineInv h (inv.hostIn rest)

/-! ## Every reachable state -/

theorem machineInv_powerOn (p : Params) : MachineInv (State.powerOn p) := by
  refine .of_parts ⟨Nat.zero_le _, Nat.zero_le _, .idle rfl⟩ ⟨rfl, by simp⟩ ?_ (pendingInv_of_not_pending rfl) ?_
  · constructor <;> simp
  · constructor <;> simp [acceptsKind]

/-- Settles O54: in the reset state the receiver is idle, nothing is pending, sent or written. -/
theorem powerOnMeetsInvariant : Obligations.PowerOnMeetsInvariant :=
  fun p ins => (machineInv_powerOn p).hostIn ins

/-- A run keeps the invariant, by induction on its steps. -/
theorem run_machineInv {n : Nat} {s t : State} (inv : MachineInv s)
    (h : Host.Core.run Sys2Proof.core n s = .next t) : MachineInv t := by
  induction n generalizing s with
  | zero =>
    cases h
    exact inv
  | succ n ih =>
    simp only [Host.Core.run] at h
    split at h
    next u hu => exact ih (stepKeepsInvariant s u inv hu) h
    · cases h
    · cases h

/-- Settles O56: the invariant holds at power-on and along the run, and R47 is its first part. -/
theorem reachableStatesMeetR47 : Obligations.ReachableStatesMeetR47 :=
  fun p ins _ _ h => (run_machineInv (powerOnMeetsInvariant p ins) h).state_invariants

/-! ## Which rules write the enables, the latches and the buffer -/

/-- No receive rule writes the enables (R30). -/
theorem RxOutcome.enables_eq {b : Byte} {s t : State} (h : RxOutcome b s t) : t.rxEn = s.rxEn ∧ t.txEn = s.txEn := by
  cases h <;> exact ⟨rfl, rfl⟩

/-- A received byte changes the latches only by a delivery, answered (OK, 1) (R28, R29, 40_frame_rx.md R126). -/
theorem RxOutcome.latches_eq_or_delivered {b : Byte} {s t : State} (h : RxOutcome b s t) :
    (t.dlv = s.dlv ∧ t.dg = s.dg) ∨ t.responses = s.responses ++ [⟨.ok, 1⟩] := by
  cases h
  case emptyDelivered | storedDelivered | matched => exact .inr rfl
  all_goals exact .inl ⟨rfl, rfl⟩

/-- A received byte changes the buffer only in `PAYLOAD`, at `RX_COUNT` (R118). -/
theorem RxOutcome.rxbuf_eq_or_stored {b : Byte} {s t : State} (h : RxOutcome b s t) :
    t.rxbuf = s.rxbuf ∨ s.rx.state = .payload ∧ s.rx.count.toNat < s.params.rxCap.toNat ∧
      t.rxbuf = (storedState s b).rxbuf := by
  cases h
  case stored hs hc _ | storedLast hs hc _ _ | storedDelivered hs hc _ _ => exact .inr ⟨hs, hc, rfl⟩
  all_goals exact .inl rfl

/-- What the buffer reads after a byte is stored at `RX_COUNT`. -/
theorem storedState_bufByte (s : State) (b : Byte) (a : Nat) :
    (storedState s b).bufByte a = if a = s.rx.count.toNat then b else s.bufByte a :=
  State.bufByte_set s s.rx.count.toNat a b

/-- An instruction that carries no received byte writes neither the latches, but for `DLV_PENDING`, nor the buffer. -/
theorem ExecOutcome.latches_and_rxbuf_eq {i : Instr} {s t : State} (h : ExecOutcome i s t) (hi : lineByte i = none) :
    (t.dlv.len = s.dlv.len ∧ t.dlv.kind = s.dlv.kind ∧ t.dg = s.dg) ∧ t.rxbuf = s.rxbuf := by
  cases h
  case received hb _ => simp [hi] at hb
  all_goals exact ⟨⟨rfl, rfl, rfl⟩, rfl⟩

/-- Only a write to `CTRL` changes an enable (R30). -/
theorem ExecOutcome.enables_eq_or_ctrl {i : Instr} {s t : State} (h : ExecOutcome i s t) :
    (t.rxEn = s.rxEn ∧ t.txEn = s.txEn) ∨ ∃ v, i = .csrWrite 0x00 v := by
  cases h
  case received h => exact .inl h.enables_eq
  case csrWriteCtrl v => exact .inr ⟨v, rfl⟩
  all_goals exact .inl ⟨rfl, rfl⟩

/-- Settles O53: by what each rule writes, the received bytes apart from the other instructions. -/
theorem onlyTheNamedRulesWriteLatchesAndBuffer : Obligations.OnlyTheNamedRulesWriteLatchesAndBuffer := by
  intro i s t h
  refine ⟨(exec_next h).enables_eq_or_ctrl, ?_⟩
  cases hi : lineByte i with
  | none =>
    obtain ⟨hlatch, hbuf⟩ := (exec_next h).latches_and_rxbuf_eq hi
    exact ⟨.inl hlatch, .inl (State.bufByte_congr hbuf)⟩
  | some b =>
    rw [exec_of_lineByte s hi] at h
    have hrx := receiveByte_next h
    constructor
    · rcases hrx.latches_eq_or_delivered with ⟨hdlv, hdg⟩ | hr
      · exact .inl ⟨by rw [hdlv], by rw [hdlv], hdg⟩
      · exact .inr ⟨⟨b, rfl⟩, hr⟩
    · rcases hrx.rxbuf_eq_or_stored with hbuf | ⟨hs, hc, hbuf⟩
      · exact .inl (State.bufByte_congr hbuf)
      · refine .inr ⟨b, rfl, hs, hc, fun a => ?_⟩
        rw [State.bufByte_congr hbuf, storedState_bufByte]

/-! ## What the CSRs show -/

/-- Reading a register answers its value and changes nothing else (44_control.md R203). -/
theorem exec_csrRead_of_number (s : State) {c : Byte} {r : Csr} (h : csrOfNumber c = some r) :
    exec (.csrRead c) s = .next { s with responses := s.responses ++ [⟨.ok, csrValue s r⟩] } := by
  rw [exec_csrRead, execCsrRead, h]
  rfl

/-- A word of two halves shows each at its bits (R39, R40). -/
theorem halves_fields (hi lo : Half) :
    (hi ++ lo : Word).extractLsb' 0 16 = lo ∧ (hi ++ lo : Word).extractLsb' 16 16 = hi :=
  ⟨BitVec.extractLsb'_append_eq_right, BitVec.extractLsb'_append_eq_left⟩

/-- A word of a zero byte, a byte and a half shows each at its bits (R37, R38, R42). -/
theorem byteHalf_fields (b : Byte) (lo : Half) :
    (0#8 ++ b ++ lo : Word).extractLsb' 0 16 = lo ∧ (0#8 ++ b ++ lo : Word).extractLsb' 16 8 = b ∧
      (0#8 ++ b ++ lo : Word).extractLsb' 24 8 = 0 := by
  simp only [BitVec.extractLsb'_append_eq_ite]
  simp

/-- `CTRL` (R34). -/
theorem csrValue_ctrl_fields (s : State) :
    (csrValue s .ctrl).getLsbD 0 = s.rxEn ∧ (csrValue s .ctrl).getLsbD 1 = s.txEn ∧
      (csrValue s .ctrl).extractLsb' 2 30 = 0 := by
  simp only [csrValue, BitVec.getLsbD_append, BitVec.extractLsb'_append_eq_ite]
  simp

/-- `STATUS` (R35). -/
theorem csrValue_status_fields (s : State) :
    (csrValue s .status).extractLsb' 0 3 = s.rx.state.code ∧ (csrValue s .status).getLsbD 3 = s.dlv.pending ∧
      (csrValue s .status).getLsbD 4 = s.dg.ok ∧ (csrValue s .status).getLsbD 5 = s.dg.isHsk ∧
      (csrValue s .status).getLsbD 6 = s.tx.isOpen ∧ (csrValue s .status).getLsbD 7 = false ∧
      (csrValue s .status).extractLsb' 8 3 = s.rx.ckCount ∧ (csrValue s .status).extractLsb' 11 21 = 0 := by
  simp only [csrValue, BitVec.getLsbD_append, BitVec.extractLsb'_append_eq_ite]
  simp

/-- `ERR` (R36). -/
theorem csrValue_err_fields (s : State) :
    (csrValue s .err).extractLsb' 0 7 = s.err ∧ (csrValue s .err).extractLsb' 7 25 = 0 :=
  ⟨BitVec.extractLsb'_append_eq_right, BitVec.extractLsb'_append_eq_left⟩

/-- `CONFIG` (R44). -/
theorem csrValue_config_fields (s : State) :
    (csrValue s .config).extractLsb' 0 16 = s.params.rxCap ∧
      (csrValue s .config).getLsbD 16 = s.params.crc32Present ∧ (csrValue s .config).extractLsb' 17 15 = 0 := by
  simp only [csrValue, BitVec.getLsbD_append, BitVec.extractLsb'_append_eq_ite]
  simp

/-- After power-on every register but `CONFIG` reads 0. -/
theorem csrValue_powerOn (p : Params) {r : Csr} (h : r ≠ .config) : csrValue (State.powerOn p) r = 0 := by
  cases r <;> simp_all [csrValue, RxState.code, kindCode]

/-- Settles O37: the bits of each register's value, read by `exec_csrRead_of_number`. -/
theorem csrReadShowsFields : Obligations.CsrReadShowsFields := by
  intro s
  obtain ⟨hrxEn, htxEn, hctrl⟩ := csrValue_ctrl_fields s
  obtain ⟨hstate, hpending, hok, hhsk, hopen, hbit7, hck, hstatus⟩ := csrValue_status_fields s
  obtain ⟨herr, herr0⟩ := csrValue_err_fields s
  obtain ⟨hdlvLen, hdlvKind, hdlv0⟩ := byteHalf_fields (kindCode s.dlv.kind) s.dlv.len
  obtain ⟨hsession, htype, hdg0⟩ := byteHalf_fields s.dg.type s.dg.session
  obtain ⟨hbody, hbody0⟩ := halves_fields 0 s.dg.bodyLen
  obtain ⟨hcount, hlen⟩ := halves_fields s.rx.len s.rx.count
  obtain ⟨hremain, htxKind, htx0⟩ := byteHalf_fields (kindCode s.tx.kind) s.tx.remain
  obtain ⟨hcap, hcrc, hconfig⟩ := csrValue_config_fields s
  have read {c : Byte} {r : Csr} (h : csrOfNumber c = some r) := exec_csrRead_of_number s h
  refine ⟨csrValue s .ctrl, csrValue s .status, csrValue s .err, csrValue s .dlvInfo, csrValue s .dgHdr,
    csrValue s .dgBody, csrValue s .rxProgress, csrValue s .txProgress, csrValue s .config,
    read rfl, hrxEn, htxEn, hctrl, read rfl, hstate, hpending, hok, hhsk, hopen, hbit7, hck, hstatus,
    read rfl, herr, herr0, read rfl, hdlvLen, hdlvKind, hdlv0, read rfl, hsession, htype, hdg0,
    read rfl, hbody, hbody0, read rfl, hcount, hlen, read (r := .rxAcc) rfl, read rfl, hremain, htxKind, htx0,
    read (r := .txAcc) rfl, read rfl, hcap, hcrc, hconfig, ?_⟩
  rintro p rfl
  have zero {r : Csr} (h : r ≠ .config) := csrValue_powerOn p h
  exact ⟨zero (by decide), zero (by decide), zero (by decide), zero (by decide), zero (by decide), zero (by decide),
    zero (by decide), rfl, zero (by decide), rfl⟩

/-- The numbers from 0x0B on are reserved (R33, R45). -/
theorem csrOfNumber_eq_none {c : Byte} (h : 0x0B ≤ c.toNat) : csrOfNumber c = none := by
  unfold csrOfNumber
  split <;> simp_all

/-- Settles O38: a reserved number stands for no register, so both commands take the illegal step. -/
theorem reservedCsrIsIllegal : Obligations.ReservedCsrIsIllegal := by
  intro s c v h
  have hnone := csrOfNumber_eq_none h
  constructor
  · rw [exec_csrRead, execCsrRead, hnone]
    rfl
  · rw [exec_csrWrite, hnone]
    rfl

end Sys2Proof.Machine
end

section
/-! PROOF. Memory and transport (spec 20_memory.md): words and responses carried as bytes (O7, O60), the stability of a
delivered payload (O47), and how the wire grows (O51). -/

namespace Sys2Proof.Machine

/-! ## Words carried as bytes -/

/-- Bits cut out of bits cut out of `x` are bits of `x`. -/
theorem extractLsb'_extractLsb' {n : Nat} (x : BitVec n) (start len start' len' : Nat) (h : start' + len' ≤ len) :
    (x.extractLsb' start len).extractLsb' start' len' = x.extractLsb' (start + start') len' := by
  ext k hk
  have hin : start' + k < len := by omega
  simp [hin, Nat.add_assoc]

/-- The eight bytes of a command word, put together again (20_memory.md R64). -/
theorem append_wordBytes (w : CmdWord) :
    w.extractLsb' 56 8 ++ w.extractLsb' 48 8 ++ w.extractLsb' 40 8 ++ w.extractLsb' 32 8 ++ w.extractLsb' 24 8 ++
      w.extractLsb' 16 8 ++ w.extractLsb' 8 8 ++ w.extractLsb' 0 8 = w := by
  simp only [BitVec.extractLsb'_append_extractLsb'_eq_extractLsb']
  exact BitVec.extractLsb'_eq_self

/-- Settles O7: the decoder puts the eight bytes together into the word they were cut from. -/
theorem commandBytesAreLittleEndian : Obligations.CommandBytesAreLittleEndian := by
  intro w rest
  cases hw : decodeWord w <;>
    simp only [wordBytes, List.cons_append, List.nil_append, decodeBytes, append_wordBytes, hw]

/-- The four bytes of a value carry that value (R64). -/
@[simp] theorem valueOfBytes_valueBytes (v : Word) : valueOfBytes (valueBytes v) = some v := by
  simp only [valueBytes, valueOfBytes, BitVec.extractLsb'_append_extractLsb'_eq_extractLsb']
  exact congrArg some BitVec.extractLsb'_eq_self

/-- The weights of a value's four bytes (R64). -/
theorem toNat_eq_weighted_bytes (v : Word) :
    v.toNat = (v.extractLsb' 0 8).toNat + 0x100 * (v.extractLsb' 8 8).toNat +
      0x10000 * (v.extractLsb' 16 8).toNat + 0x1000000 * (v.extractLsb' 24 8).toNat := by
  have hv := v.isLt
  simp only [BitVec.extractLsb'_toNat, Nat.shiftRight_eq_div_pow]
  omega

/-- The bytes of a response give it back (R64, 30_encoding.md R87). -/
@[simp] theorem Response.ofBytes_toBytes (r : Response) : Response.ofBytes r.toBytes = some r := by
  simp [Response.ofBytes]

theorem Response.toNat_statusByte (r : Response) : r.toBytes.1.toNat = r.status.code.toNat := by
  have hcode := r.status.code.isLt
  rw [Response.toBytes_status, BitVec.toNat_setWidth, Nat.mod_eq_of_lt (by omega)]

/-- `W32` is a word's bits 47:16 (30_encoding.md R86). -/
theorem w32_ofWord (w : CmdWord) : (CommandFields.ofWord w).w32 = w.extractLsb' 16 32 :=
  BitVec.extractLsb'_append_extractLsb'_eq_extractLsb' rfl

/-- A value placed in `W32` is read there (R86). -/
theorem w32_withW32 (f : CommandFields) (v : Word) : (f.withW32 v).w32 = v :=
  (BitVec.extractLsb'_append_extractLsb'_eq_extractLsb' rfl).trans BitVec.extractLsb'_eq_self

/-- The bytes of a command word by its fields, `W32` little-endian in the middle (R64, R86). -/
theorem wordBytes_eq_fields (w : CmdWord) :
    wordBytes w = [(CommandFields.ofWord w).op, (CommandFields.ofWord w).a8] ++
      valueBytes (CommandFields.ofWord w).w32 ++ [(CommandFields.ofWord w).b8, (CommandFields.ofWord w).rsv] := by
  rw [w32_ofWord]
  simp [valueBytes, extractLsb'_extractLsb', wordBytes, CommandFields.ofWord]

theorem wordBytes_toWord (f : CommandFields) :
    wordBytes f.toWord = [f.op, f.a8] ++ valueBytes f.w32 ++ [f.b8, f.rsv] := by
  rw [wordBytes_eq_fields, Laws.EncodingWellFormed.ofWord_toWord]

/-- Settles O60: the response's two numbers by their own inverses, the command word by its fields. -/
theorem responseBytesAreLittleEndian : Obligations.ResponseBytesAreLittleEndian := by
  refine ⟨fun r => ⟨r.ofBytes_toBytes, r.toNat_statusByte⟩, fun v => ⟨_, _, _, _, rfl, toNat_eq_weighted_bytes v⟩,
    fun _ _ => rfl, fun c v w h => ?_⟩
  cases h
  rw [wordBytes_toWord, w32_withW32]
  rfl

/-! ## The delivered payload -/

/-- While a delivery is pending a received byte changes no more than the responses (40_frame_rx.md R111, R112): every
later rule asks that none is pending. -/
theorem RxOutcome.eq_respond_of_pending {b : Byte} {s t : State} (h : RxOutcome b s t) (hp : s.dlv.pending = true) :
    ∃ st d, t = s.respond st d := by
  cases h
  case discarded | busy => exact ⟨_, _, rfl⟩
  all_goals simp_all

/-- While a delivery is pending, only `DLV_ACK` and `FRM_RESET` write the latches or the buffer (R73). -/
theorem ExecOutcome.delivered_eq {i : Instr} {s t : State} (h : ExecOutcome i s t) (hp : s.dlv.pending = true)
    (hack : i ≠ .dlvAck) (hreset : i ≠ .frmReset) : t.dlv = s.dlv ∧ t.dg = s.dg ∧ t.rxbuf = s.rxbuf := by
  cases h
  case received h =>
    obtain ⟨st, d, rfl⟩ := h.eq_respond_of_pending hp
    exact ⟨rfl, rfl, rfl⟩
  case dlvAck => exact absurd rfl hack
  case frmReset => exact absurd rfl hreset
  all_goals exact ⟨rfl, rfl, rfl⟩

/-- Settles O47: by induction on the sequence, each instruction keeping the delivery and so its own premise. -/
theorem deliveredPayloadIsStable : Obligations.DeliveredPayloadIsStable := by
  intro is
  induction is with
  | nil =>
    intro s t _ _ h
    cases h
    exact ⟨rfl, rfl, rfl⟩
  | cons i is ih =>
    intro s t hp hall h
    obtain ⟨⟨hack, hreset⟩, hrest⟩ := List.forall_mem_cons.1 hall
    rw [runInstrs_cons, andThen_eq_next] at h
    obtain ⟨u, hu, ht⟩ := h
    obtain ⟨hdlv, hdg, hbuf⟩ := (exec_next hu).delivered_eq hp hack hreset
    obtain ⟨hdlv', hdg', hbuf'⟩ := ih u t (hdlv ▸ hp) hrest ht
    exact ⟨hdlv'.trans hdlv, hdg'.trans hdg, hbuf'.trans hbuf⟩

/-! ## The wire -/

/-- No receive rule emits (20_memory.md R61). -/
theorem RxOutcome.txw_eq {b : Byte} {s t : State} (h : RxOutcome b s t) : t.txw = s.txw := by
  cases h <;> rfl

/-- Only a transmit command emits (R61). -/
theorem ExecOutcome.txw_eq {i : Instr} {s t : State} (h : ExecOutcome i s t) (hi : isTransmit i = false) :
    t.txw = s.txw := by
  cases h
  case received h => exact h.txw_eq
  case txStart | txStartRefused | txByte | txByteRefused | dgTxStart | dgTxStartRefused => cases hi
  all_goals rfl

/-- `t` is reached from `s` by emitting `n` bytes, with no response given yet. -/
structure Emits (s t : State) (n : Nat) : Prop where
  responses_eq : t.responses = s.responses
  wire : ∃ bs, t.txw = s.txw ++ bs ∧ bs.length = n

theorem Emits.trans {s t u : State} {m n : Nat} (h : Emits s t m) (h' : Emits t u n) : Emits s u (m + n) := by
  obtain ⟨hr, bs, hw, rfl⟩ := h
  obtain ⟨hr', bs', hw', rfl⟩ := h'
  exact ⟨hr'.trans hr, bs ++ bs', by rw [hw', hw, List.append_assoc], List.length_append⟩

/-- An accepted start emits the header, and the trailer of an empty frame (41_frame_tx.md R142, R144). -/
theorem emits_startedState (s : State) (k : CksumKind) (d : Bool) (len : Half) :
    Emits s (startedState s k d len) (4 + if len = 0 then trailerWidth k else 0) := by
  refine ⟨rfl, _, rfl, ?_⟩
  rw [List.length_append]
  split <;> simp

/-- A body byte emits itself, and the trailer after the last one (R145, R146). -/
theorem emits_bodyState (s : State) (b : Byte) :
    Emits s (bodyState s b) (1 + if s.tx.remain = 1 then trailerWidth s.tx.kind else 0) := by
  refine ⟨rfl, _, rfl, ?_⟩
  split <;> simp [Nat.add_comm]

/-- The datagram header is a frame header and three body bytes, with the trailer where no body follows (43_datagram.md
R186). -/
theorem emits_dgStarted (s : State) (k : CksumKind) (d : Bool) {bodyLen : Half} (b₀ b₁ b₂ : Byte)
    (hb : bodyLen.toNat ≤ 0xFFFC) :
    Emits s (bodyState (bodyState (bodyState (startedState s k d (bodyLen + 3)) b₀) b₁) b₂)
      (7 + if bodyLen = 0 then trailerWidth k else 0) := by
  have hlast : bodyLen + 3 - 1 - 1 = 1 ↔ bodyLen = 0 := by
    constructor <;> intro h <;> bv_omega
  have hstart := emits_startedState s k d (bodyLen + 3)
  have hbody₀ := emits_bodyState (startedState s k d (bodyLen + 3)) b₀
  have hbody₁ := emits_bodyState (bodyState (startedState s k d (bodyLen + 3)) b₀) b₁
  have hbody₂ : Emits _ _ (1 + if bodyLen + 3 - 1 - 1 = 1 then trailerWidth k else 0) :=
    emits_bodyState (bodyState (bodyState (startedState s k d (bodyLen + 3)) b₀) b₁) b₂
  rw [if_neg (by bv_omega)] at hstart
  rw [if_neg (by simp only [startedState]; bv_omega)] at hbody₀
  rw [if_neg (by simp only [bodyState, startedState]; bv_omega)] at hbody₁
  simp only [hlast] at hbody₂
  convert ((hstart.trans hbody₀).trans hbody₁).trans hbody₂ using 1
  omega

/-- What was emitted before a response is what the wire has grown by after it. -/
theorem Emits.reported {s t : State} {n : Nat} (h : Emits s t n) (st : Status) :
    ∃ bs, (t.respond st (BitVec.ofNat 32 n)).txw = s.txw ++ bs ∧
      ∃ st', (t.respond st (BitVec.ofNat 32 n)).responses = s.responses ++ [⟨st', BitVec.ofNat 32 bs.length⟩] := by
  obtain ⟨hr, bs, hw, rfl⟩ := h
  exact ⟨bs, hw, st, by rw [State.respond_responses, hr]⟩

/-- Raising a flag emits nothing, and a refused transmit command does no more before its response (R141,
60_exceptions.md R235). -/
theorem emits_raise (s : State) (f : ErrFlag) : Emits s (s.raise f) 0 :=
  ⟨rfl, [], (List.append_nil _).symm, rfl⟩

/-- An instruction that carries a received byte is no transmit command. -/
theorem isTransmit_of_lineByte {i : Instr} {b : Byte} (h : lineByte i = some b) : isTransmit i = false := by
  cases i
  case txStart | txByte | dgTxStart => cases h
  all_goals rfl

/-- A transmit command reports the number of bytes it emitted (R140, R145, 43_datagram.md R186). -/
theorem ExecOutcome.reports_emitted {i : Instr} {s t : State} (h : ExecOutcome i s t) (hi : isTransmit i = true) :
    ∃ bs, t.txw = s.txw ++ bs ∧ ∃ st, t.responses = s.responses ++ [⟨st, BitVec.ofNat 32 bs.length⟩] := by
  cases h
  case txStart => exact (emits_startedState ..).reported .ok
  case txByte => exact (emits_bodyState ..).reported .ok
  case dgTxStart hb _ => exact (emits_dgStarted s _ _ _ _ _ hb).reported .ok
  case txStartRefused | txByteRefused | dgTxStartRefused => exact (emits_raise s .txRefused).reported .refused
  case received hb _ => simp [isTransmit_of_lineByte hb] at hi
  all_goals cases hi

/-- Settles O51: a transmit command reports what it emitted, and every other instruction leaves the wire alone. -/
theorem wireGrowsByReportedBytes : Obligations.WireGrowsByReportedBytes := by
  intro i s t h
  cases hi : isTransmit i with
  | false => exact ⟨[], by rw [(exec_next h).txw_eq hi, List.append_nil], fun _ => rfl, by simp⟩
  | true =>
    obtain ⟨bs, hw, hr⟩ := (exec_next h).reports_emitted hi
    exact ⟨bs, hw, by simp, fun _ => hr⟩

end Sys2Proof.Machine
end

section
/-! PROOF. Encoding (spec 30_encoding.md): the decoder and the encoder by the fields of a word (O1, O2, O3, O5), the step
of any word (O4), one response for each input (O43, O58), the wire symbols (O20) and `SEND_FRAME` (O29). -/

namespace Sys2Proof

/-! ## A word by its fields -/

/-- The word built from the fields cut out of `w` is `w` (R86). -/
theorem CommandFields.toWord_ofWord (w : CmdWord) : (CommandFields.ofWord w).toWord = w := by
  simp only [CommandFields.toWord, CommandFields.ofWord, BitVec.extractLsb'_append_extractLsb'_eq_extractLsb']
  exact BitVec.extractLsb'_eq_self

/-- Two words are equal exactly when their fields are. -/
theorem eq_iff_ofWord_eq {v w : CmdWord} : v = w ↔ CommandFields.ofWord v = CommandFields.ofWord w := by
  refine ⟨congrArg _, fun h => ?_⟩
  rw [← CommandFields.toWord_ofWord v, h, CommandFields.toWord_ofWord]

/-- The fields `f` under the masks `g`, one for each field. -/
def CommandFields.and (f g : CommandFields) : CommandFields where
  op  := f.op &&& g.op
  a8  := f.a8 &&& g.a8
  a16 := f.a16 &&& g.a16
  b16 := f.b16 &&& g.b16
  b8  := f.b8 &&& g.b8
  rsv := f.rsv &&& g.rsv

/-- A mask over a word acts on each field by itself. -/
theorem CommandFields.ofWord_and (v w : CmdWord) :
    CommandFields.ofWord (v &&& w) = (CommandFields.ofWord v).and (CommandFields.ofWord w) := by
  simp only [CommandFields.and, CommandFields.ofWord, BitVec.extractLsb'_and]

/-- Placing the `W32` of some fields copies their two halves (R86). -/
theorem CommandFields.withW32_w32 (f g : CommandFields) : f.withW32 g.w32 = { f with a16 := g.a16, b16 := g.b16 } := by
  have hlo : g.w32.extractLsb' 0 16 = g.a16 := BitVec.extractLsb'_append_eq_right
  have hhi : g.w32.extractLsb' 16 16 = g.b16 := BitVec.extractLsb'_append_eq_left
  rw [CommandFields.withW32, hlo, hhi]

/-! ## The command rows -/

/-- The ten defined opcodes (R88). -/
theorem opcode_cases {op : Byte} (h : op.toNat < 10) :
    op = 0 ∨ op = 1 ∨ op = 2 ∨ op = 3 ∨ op = 4 ∨ op = 5 ∨ op = 6 ∨ op = 7 ∨ op = 8 ∨ op = 9 := by
  bv_omega

/-- An opcode with a row is one of the ten (R88, R90). -/
theorem toNat_lt_of_commandRow {op : Byte} {r : CommandRow} (h : commandRow op = some r) : op.toNat < 10 := by
  unfold commandRow at h
  split at h
  case h_11 => cases h
  all_goals omega

/-- Well-formed fields have one of the ten opcodes. -/
theorem toNat_lt_of_wellFormed {f : CommandFields} (hwf : f.wellFormed = true) : f.op.toNat < 10 := by
  unfold CommandFields.wellFormed Format.ofOpcode at hwf
  by_contra hop
  split at hwf
  · cases hwf
  next fmt hfmt =>
    split at hfmt
    case h_11 => cases hfmt
    all_goals omega

/-- A word meets its row's mask and match exactly when its fields are well formed (R89). -/
theorem meets_commandRow_iff {w : CmdWord} {r : CommandRow} (h : commandRow (CommandFields.ofWord w).op = some r) :
    w &&& r.mask = r.matchBits ↔ (CommandFields.ofWord w).wellFormed = true := by
  rw [eq_iff_ofWord_eq, CommandFields.ofWord_and]
  generalize CommandFields.ofWord w = f at h
  obtain ⟨op, a8, a16, b16, b8, rsv⟩ := f
  have mask8 (b : Byte) : b &&& 0xFF#8 = b := BitVec.and_allOnes
  have mask16 (x : Half) : x &&& 0xFFFF#16 = x := BitVec.and_allOnes
  rcases opcode_cases (toNat_lt_of_commandRow h) with rfl | rfl | rfl | rfl | rfl | rfl | rfl | rfl | rfl | rfl
  all_goals
    cases h
    simp [CommandFields.and, CommandFields.ofWord, CommandFields.wellFormed, Format.ofOpcode,
      Format.zeroFieldsOk, mask8, mask16, and_assoc]

/-- The operands taken from well-formed fields encode to the word of those fields. -/
theorem encode_operands {f : CommandFields} {r : CommandRow} (h : commandRow f.op = some r)
    (hwf : f.wellFormed = true) : encode (r.operands f) = .command f.toWord := by
  obtain ⟨op, a8, a16, b16, b8, rsv⟩ := f
  rcases opcode_cases (toNat_lt_of_commandRow h) with rfl | rfl | rfl | rfl | rfl | rfl | rfl | rfl | rfl | rfl
  all_goals
    cases h
    simp_all [CommandFields.wellFormed, Format.ofOpcode, Format.zeroFieldsOk, encode, CommandFields.withW32_w32]

/-- A word with a row meets the row or is rejected (R89). -/
theorem decodeWord_of_commandRow {w : CmdWord} {r : CommandRow} (h : commandRow (CommandFields.ofWord w).op = some r) :
    decodeWord w = if (CommandFields.ofWord w).wellFormed then .ok (r.operands (CommandFields.ofWord w))
      else .error (.mustBeZero (CommandFields.ofWord w).op) := by
  simp only [decodeWord, h, meets_commandRow_iff h]

/-- Well-formed fields have a row. -/
theorem exists_commandRow_of_wellFormed {f : CommandFields} (hwf : f.wellFormed = true) :
    ∃ r, commandRow f.op = some r := by
  obtain h | h | h | h | h | h | h | h | h | h := opcode_cases (toNat_lt_of_wellFormed hwf)
  all_goals
    rw [h]
    exact ⟨_, rfl⟩

/-- A word decodes to `i` exactly when its fields are well formed and its row takes the operands of `i` from them. -/
theorem decodeWord_eq_ok_iff {w : CmdWord} {i : Instr} :
    decodeWord w = .ok i ↔ (CommandFields.ofWord w).wellFormed = true ∧
      ∃ r, commandRow (CommandFields.ofWord w).op = some r ∧ r.operands (CommandFields.ofWord w) = i := by
  cases hr : commandRow (CommandFields.ofWord w).op with
  | none => simp [decodeWord, hr]
  | some r =>
    rw [decodeWord_of_commandRow hr]
    split <;> simp_all

/-- The word of well-formed fields decodes to the operands of its row. -/
theorem decodeWord_toWord {f : CommandFields} {r : CommandRow} (hwf : (CommandFields.ofWord f.toWord).wellFormed = true)
    (hr : commandRow f.op = some r) : decodeWord f.toWord = .ok (r.operands f) := by
  rw [Laws.EncodingWellFormed.ofWord_toWord] at hwf
  rw [decodeWord_eq_ok_iff, Laws.EncodingWellFormed.ofWord_toWord]
  exact ⟨hwf, r, hr, rfl⟩

open Laws.EncodingWellFormed in
/-- Settles O1: the fields that each command is encoded in are well formed and its row takes the operands back out of them;
a wire symbol is read at its place. -/
theorem decodeOfEncodeIsIdentity : Obligations.DecodeOfEncodeIsIdentity := by
  intro i
  cases i
  case nop => exact decodeWord_toWord nop rfl
  case rxByte b => exact decodeWord_toWord (rxByte b) rfl
  case txStart kind len => exact decodeWord_toWord (txStart kind len) rfl
  case txByte b => exact decodeWord_toWord (txByte b) rfl
  case dgTxStart kind session type bodyLen => exact decodeWord_toWord (dgTxStart kind session type bodyLen) rfl
  case dlvAck => exact decodeWord_toWord dlvAck rfl
  case frmReset => exact decodeWord_toWord frmReset rfl
  case csrRead csr => exact decodeWord_toWord (csrRead csr) rfl
  case csrWrite csr value =>
    refine (decodeWord_toWord (csrWrite csr value) rfl).trans ?_
    exact congrArg (fun v => Except.ok (Instr.csrWrite csr v)) (Machine.w32_withW32 _ _)
  case bufRead addr => exact decodeWord_toWord (bufRead addr) rfl
  case sof => exact sof
  case cksumKindNone => exact cksumKindNone
  case cksumKindXor => exact cksumKindXor
  case cksumKindCrc32 => exact cksumKindCrc32

/-- A word that decodes is the encoding of what it decodes to: its row's operands hold every bit of it. -/
theorem encode_of_decodeWord {w : CmdWord} {i : Instr} (h : decodeWord w = .ok i) : encode i = .command w := by
  obtain ⟨hwf, r, hr, rfl⟩ := decodeWord_eq_ok_iff.1 h
  rw [encode_operands hr hwf, CommandFields.toWord_ofWord]

/-- A byte that is a wire symbol at its place is the encoding of that symbol (R81, R82). -/
theorem encode_of_decodeSymbol {place : FramePlace} {b : Byte} {i : Instr} (h : decodeSymbol place b = .ok i) :
    encode i = .wireByte place b := by
  unfold decodeSymbol at h
  split at h <;> cases h
  all_goals
    next hb =>
    refine congrArg (HostInput.wireByte _) (BitVec.eq_of_toNat_eq ?_)
    exact hb.symm

/-- Settles O2: the two kinds of host input. -/
theorem encodeOfDecodeIsIdentity : Obligations.EncodeOfDecodeIsIdentity := by
  rintro (w | ⟨place, b⟩) i h
  · exact encode_of_decodeWord h
  · exact encode_of_decodeSymbol h

/-- Settles O3: well-formed fields have a row, and a word with a row decodes when its fields are well formed. -/
theorem legalWordsAreTheWellFormedFields : Obligations.LegalWordsAreTheWellFormedFields := by
  intro w
  simp only [decodeWord_eq_ok_iff]
  constructor
  · rintro ⟨i, hwf, -⟩
    exact hwf
  · intro hwf
    obtain ⟨r, hr⟩ := exists_commandRow_of_wellFormed hwf
    exact ⟨_, hwf, r, hr, rfl⟩

/-- Settles O5: each word and byte by evaluation of the decoder. -/
theorem specWordsDecode : Obligations.SpecWordsDecode := by
  unfold Obligations.SpecWordsDecode
  and_intros
  all_goals rfl

/-! ## The opcode table -/

/-- A row of the opcode table fixes the whole opcode, and is the command row of that opcode (R88, R89). -/
theorem commandRow_of_mem_opcodeTable {r : CmdWord × CmdWord} (hr : r ∈ Machine.opcodeTable) :
    (CommandFields.ofWord r.1).op = 0xFF ∧
      ∃ c, commandRow (CommandFields.ofWord r.2).op = some c ∧ (c.mask, c.matchBits) = r := by
  simp only [Machine.opcodeTable, List.mem_cons, List.not_mem_nil, or_false] at hr
  rcases hr with rfl | rfl | rfl | rfl | rfl | rfl | rfl | rfl | rfl | rfl
  all_goals exact ⟨rfl, _, rfl, rfl⟩

/-- Every command row stands in the opcode table. -/
theorem mem_opcodeTable_of_commandRow {op : Byte} {c : CommandRow} (h : commandRow op = some c) :
    (c.mask, c.matchBits) ∈ Machine.opcodeTable := by
  rcases opcode_cases (toNat_lt_of_commandRow h) with rfl | rfl | rfl | rfl | rfl | rfl | rfl | rfl | rfl | rfl
  all_goals
    cases h
    decide

/-- A word that meets a row of the table has the row's opcode. -/
theorem op_of_meets {w : CmdWord} {r : CmdWord × CmdWord} (hr : r ∈ Machine.opcodeTable) (hw : w &&& r.1 = r.2) :
    (CommandFields.ofWord r.2).op = (CommandFields.ofWord w).op := by
  rw [← hw, CommandFields.ofWord_and, CommandFields.and, (commandRow_of_mem_opcodeTable hr).1]
  exact BitVec.and_allOnes

/-- A word decodes exactly when it meets a row of the opcode table (R89). -/
theorem meets_opcodeTable_iff (w : CmdWord) :
    (∃ r ∈ Machine.opcodeTable, w &&& r.1 = r.2) ↔ ∃ i, decodeWord w = .ok i := by
  constructor
  · rintro ⟨r, hr, hw⟩
    obtain ⟨-, c, hc, rfl⟩ := commandRow_of_mem_opcodeTable hr
    rw [op_of_meets hr hw] at hc
    exact ⟨_, decodeWord_eq_ok_iff.2 ⟨(meets_commandRow_iff hc).1 hw, c, hc, rfl⟩⟩
  · rintro ⟨i, hi⟩
    obtain ⟨hwf, c, hc, -⟩ := decodeWord_eq_ok_iff.1 hi
    exact ⟨_, mem_opcodeTable_of_commandRow hc, (meets_commandRow_iff hc).2 hwf⟩

/-- Settles O4: a word that meets a row decodes and runs what it decodes to, any other is rejected and runs the
illegal step. -/
theorem stepOfAnyWord : Obligations.StepOfAnyWord := by
  intro s w rest hq
  rw [meets_opcodeTable_iff, Machine.step_of_cons hq]
  refine ⟨fun ⟨i, hi⟩ => ⟨i, encode_of_decodeWord hi, Machine.present_of_decode _ hi⟩, fun hno => ?_⟩
  cases hd : decodeWord w with
  | ok i => exact absurd ⟨i, hd⟩ hno
  | error e => exact Machine.present_command_of_error _ hd

end Sys2Proof

namespace Sys2Proof.Machine

/-! ## One response for each input -/

/-- A received byte is answered by one response, and takes nothing from the host (30_encoding.md R87). -/
theorem RxOutcome.one_response {b : Byte} {s t : State} (h : RxOutcome b s t) :
    (∃ r, t.responses = s.responses ++ [r]) ∧ t.hostIn = s.hostIn := by
  cases h
  all_goals exact ⟨⟨_, rfl⟩, rfl⟩

/-- An instruction is answered by one response, and takes nothing from the host (R87). -/
theorem ExecOutcome.one_response {i : Instr} {s t : State} (h : ExecOutcome i s t) :
    (∃ r, t.responses = s.responses ++ [r]) ∧ t.hostIn = s.hostIn := by
  cases h
  case received h => exact h.one_response
  all_goals exact ⟨⟨_, rfl⟩, rfl⟩

/-- Settles O43: every rule's next state has one response more, and so has the illegal step's. -/
theorem everyInputGivesOneResponse : Obligations.EveryInputGivesOneResponse := by
  intro x s t h
  rcases present_cases x s with ⟨i, e⟩ | e <;> rw [e] at h
  · exact (exec_next h).one_response
  · cases h
    exact ⟨⟨_, rfl⟩, rfl⟩

/-! ## The whole command stream -/

/-- No state that meets the invariant stops on an instruction (44_control.md R209, 60_exceptions.md R230). -/
theorem exec_next_of_machineInv {s : State} (inv : MachineInv s) (i : Instr) : ∃ t, exec i s = .next t := by
  cases h : exec i s with
  | next t => exact ⟨t, rfl⟩
  | fault f => exact absurd inv (not_machineInv_of_exec_fault h)
  | refused r => exact absurd h (exec_ne_refused i s r)

/-- Nor on whatever the host presents. -/
theorem present_next_of_machineInv {s : State} (inv : MachineInv s) (x : HostInput) : ∃ t, present x s = .next t := by
  rcases present_cases x s with ⟨i, e⟩ | e <;> rw [e]
  · exact exec_next_of_machineInv inv i
  · exact ⟨_, rfl⟩

/-- A run goes on from the first step's next state. -/
theorem run_succ_of_step {s u : State} (h : step s = .next u) (n : Nat) :
    Host.Core.run Sys2Proof.core (n + 1) s = Host.Core.run Sys2Proof.core n u := by
  have hcore : Sys2Proof.core.step s = .next u := h
  simp only [Host.Core.run, hcore]

/-- As many steps as there are inputs in the queue run them all, with one response each: the invariant keeps every step
from stopping. -/
theorem run_hostIn (ins : List HostInput) {s : State} (inv : MachineInv s) (hq : s.hostIn = ins) :
    ∃ t, Host.Core.run Sys2Proof.core ins.length s = .next t ∧ t.hostIn = [] ∧
      t.responses.length = s.responses.length + ins.length := by
  induction ins generalizing s with
  | nil => exact ⟨s, rfl, hq, rfl⟩
  | cons x rest ih =>
    obtain ⟨u, hu⟩ := present_next_of_machineInv (inv.hostIn rest) x
    have hstep : step s = .next u := (step_of_cons hq).trans hu
    obtain ⟨⟨r, hr⟩, hrest⟩ := everyInputGivesOneResponse x _ u hu
    obtain ⟨t, hrun, hempty, hlen⟩ := ih (stepKeepsInvariant s u inv hstep) hrest
    refine ⟨t, ?_, hempty, ?_⟩
    · rw [← hrun]
      exact run_succ_of_step hstep rest.length
    · simp [hlen, hr]
      omega

/-- Settles O58: power-on meets the invariant, under which the queue runs to its end. -/
theorem everyCommandStreamRunsToItsEnd : Obligations.EveryCommandStreamRunsToItsEnd := by
  intro p ins
  obtain ⟨t, hrun, hempty, hlen⟩ := run_hostIn ins (powerOnMeetsInvariant p ins) rfl
  exact ⟨t, hrun, hempty, by simpa using hlen⟩

/-! ## The wire symbols -/

/-- The receiver accepts the code of every kind that is present (40_frame_rx.md R114). -/
theorem rxKindOf_kindCode {p : Params} {k : CksumKind} (h : acceptsKind p k) : rxKindOf p (kindCode k) = some k := by
  cases k with
  | none | xor => rfl
  | crc32 => exact if_pos (h rfl)

/-- Without `CRC32_PRESENT` the byte 0x20 is no kind (R114). -/
theorem rxKindOf_crc32_absent {p : Params} (h : p.crc32Present = false) : rxKindOf p 0x20 = none :=
  if_neg (by simp [h])

/-- A known kind's code is taken in `CKSUM_TYPE` (R114). -/
theorem rxKind_kindCode {s : State} {k : CksumKind} (h : acceptsKind s.params k) :
    rxKind (kindCode k) s = { s with
      rx := { s.rx with kind := k, state := .lenLsb }, responses := s.responses ++ [⟨.ok, 0⟩] } := by
  rw [rxKind, rxKindOf_kindCode h]
  rfl

/-- Without `CRC32_PRESENT` the byte 0x20 rejects the frame in `CKSUM_TYPE` (R114, R121). -/
theorem rxKind_crc32_absent {s : State} (h : s.params.crc32Present = false) :
    rxKind 0x20 s = { s with
      rx := { s.rx with state := .idle }, err := s.err ||| 0x01, responses := s.responses ++ [⟨.ok, 2⟩] } := by
  rw [rxKind, rxKindOf_crc32_absent h]
  rfl

/-- Settles O20: every symbol receives its byte by definition, and the receiver's state decides what the byte does. -/
theorem wireSymbolsFormTheHeader : Obligations.WireSymbolsFormTheHeader := by
  refine ⟨fun s => ⟨rfl, rfl, rfl, rfl⟩, fun s hen hp => ⟨fun hs => ?_, fun hs => ?_⟩⟩
  · exact receiveByte_idle hen hp hs
  · refine ⟨?_, ?_, fun hcrc => ?_, fun hcrc => ?_⟩
    · exact (receiveByte_kind hen hp hs).trans (congrArg _ (rxKind_kindCode (k := .none) nofun))
    · exact (receiveByte_kind hen hp hs).trans (congrArg _ (rxKind_kindCode (k := .xor) nofun))
    · exact (receiveByte_kind hen hp hs).trans (congrArg _ (rxKind_kindCode (k := .crc32) fun _ => hcrc))
    · exact (receiveByte_kind hen hp hs).trans (congrArg _ (rxKind_crc32_absent hcrc))

/-! ## `SEND_FRAME` -/

/-- A body byte that is not the last of its frame (41_frame_tx.md R145). -/
theorem exec_txByte_more (b : Byte) {s : State} (hen : s.txEn = true) (hopen : s.tx.isOpen = true)
    (hr : 1 < s.tx.remain.toNat) :
    ∃ t, exec (.txByte b) s = .next t ∧ t.txEn = true ∧
      t.tx = { s.tx with remain := s.tx.remain - 1, acc := accUpdate s.tx.kind s.tx.acc b } ∧
      t.txw = s.txw ++ [b] := by
  have hlast : s.tx.remain ≠ 1#16 := by bv_omega
  refine ⟨_, execTxByte_accepted b hen hopen (by bv_omega), hen, ?_, ?_⟩
  · simp [bodyState, hopen, hlast]
  · simp [bodyState, hlast]

/-- The last body byte of its frame: the trailer follows, and the frame is closed (R145, R146). -/
theorem exec_txByte_last (b : Byte) {s : State} (hen : s.txEn = true) (hopen : s.tx.isOpen = true)
    (hr : s.tx.remain = 1) :
    ∃ t, exec (.txByte b) s = .next t ∧
      t.tx = { s.tx with isOpen := false, remain := 0, acc := accUpdate s.tx.kind s.tx.acc b } ∧
      t.txw = s.txw ++ [b] ++ trailerBytes s.tx.kind (accUpdate s.tx.kind s.tx.acc b) := by
  refine ⟨_, execTxByte_accepted b hen hopen (by simp [hr]), ?_, ?_⟩
  · simp [bodyState, hr]
  · simp [bodyState, hr]

/-- The rest `p` of a payload, sent through a frame that owes exactly it: it is emitted with the trailer, and the frame
is closed. -/
theorem runInstrs_txByte_closes {p : List Byte} {s : State} (hp : p ≠ []) (hlen : p.length < 65536)
    (hen : s.txEn = true) (hopen : s.tx.isOpen = true) (hr : s.tx.remain = BitVec.ofNat 16 p.length) :
    ∃ t, runInstrs (p.map .txByte) s = .next t ∧ t.tx.isOpen = false ∧
      t.tx.acc = p.foldl (accUpdate s.tx.kind) s.tx.acc ∧ t.txw = s.txw ++ p ++ trailerBytes s.tx.kind t.tx.acc := by
  induction p generalizing s with
  | nil => exact absurd rfl hp
  | cons b bs ih =>
    rw [List.length_cons] at hlen hr
    rw [List.map_cons, runInstrs_cons]
    by_cases hbs : bs = []
    · subst hbs
      obtain ⟨t, ht, htx, hw⟩ := exec_txByte_last b hen hopen hr
      rw [ht]
      exact ⟨t, rfl, by rw [htx], by rw [htx]; rfl, by rw [hw, htx]⟩
    · have hpos := List.length_pos_iff.2 hbs
      obtain ⟨u, hu, hen', htx, hw⟩ := exec_txByte_more b hen hopen (by rw [hr]; bv_omega)
      obtain ⟨t, ht, hclosed, hacc, hw'⟩ := ih hbs (by omega) hen' (by rw [htx, hopen]) (by rw [htx, hr]; bv_omega)
      rw [htx] at hacc hw'
      rw [hu]
      exact ⟨t, ht, hclosed, hacc, by rw [hw', hw]; simp⟩

/-- Settles O29: the start emits the header and, for an empty payload, the trailer; otherwise the frame owes the
payload. -/
theorem sendFrameEmitsTheFrame : Obligations.SendFrameEmitsTheFrame := by
  intro s kind k d p is hen hopen hk hexp
  obtain ⟨hlen, rfl⟩ : p.length < 65536 ∧ .txStart kind (BitVec.ofNat 16 p.length) :: p.map .txByte = is := by
    simpa [Pseudo.expand] using hexp
  rw [runInstrs_cons, exec_txStart, execTxStart_accepted _ (txStartKind_eq_some.2 ⟨hen, hopen, hk⟩), andThen_next]
  by_cases hp : p = []
  · subst hp
    exact ⟨_, rfl, by simp [startedState, frameBytes, payloadAcc], rfl, rfl⟩
  · have hpos : BitVec.ofNat 16 p.length ≠ 0#16 := by
      have := List.length_pos_iff.2 hp
      bv_omega
    obtain ⟨t, ht, hclosed, hacc, hw⟩ := runInstrs_txByte_closes hp hlen
      (s := (startedState s k d (BitVec.ofNat 16 p.length)).respond .ok _) hen (decide_eq_true hpos) rfl
    refine ⟨t, ht, ?_, hclosed, hacc⟩
    rw [hw, hacc]
    simp [startedState, frameBytes, payloadAcc, hpos]

end Sys2Proof.Machine
end

section
/-! PROOF. Frame receive (spec 40_frame_rx.md): what each check and each state does with a byte (O9 to O16), deliveries
and rejections however they come about (O17, O19), no timeout (O48), and the frames that are delivered: every valid one
(O21, O18) and no other (O22). -/

namespace Sys2Proof.Machine

/-! ## One received byte -/

/-- Settles O9: the enable is the first check (R111). -/
theorem rxDisabledDiscardsByte : Obligations.RxDisabledDiscardsByte :=
  fun _ _ hen => receiveByte_disabled hen

/-- Settles O10: the pending check is the second (R112). -/
theorem rxPendingIsBusy : Obligations.RxPendingIsBusy :=
  fun _ _ hen hp => receiveByte_busy hen hp

/-- Settles O11: in `IDLE` the byte is compared with SOF (R113). -/
theorem rxIdleHuntsForSof : Obligations.RxIdleHuntsForSof := by
  intro s b hen hp hs
  constructor
  · intro hb
    exact (receiveByte_idle hen hp hs).trans (congrArg _ (if_pos hb))
  · intro hb
    exact (receiveByte_idle hen hp hs).trans (congrArg _ (if_neg hb))

/-- A byte that is the code of a kind is the code of that kind alone (30_encoding.md R82). -/
theorem eq_kindCode_of_kindOfCode {b : Byte} {k : CksumKind} (h : kindOfCode b = some k) : b = kindCode k := by
  unfold kindOfCode at h
  split at h <;> cases h <;> exact BitVec.eq_of_toNat_eq ‹_›

/-- The receiver takes a byte for a kind only where it is that kind's code (R114). -/
theorem eq_kindCode_of_rxKindOf {p : Params} {b : Byte} {k : CksumKind} (h : rxKindOf p b = some k) :
    b = kindCode k := by
  unfold rxKindOf at h
  split at h
  next hc =>
    split at h <;> cases h
    exact eq_kindCode_of_kindOfCode hc
  · exact eq_kindCode_of_kindOfCode h

/-- A byte that is the code of no accepted kind is unknown (R114). -/
theorem rxKindOf_eq_none {p : Params} {b : Byte} (h0 : b ≠ 0x00) (h1 : b ≠ 0x01)
    (h20 : b = 0x20 → p.crc32Present = false) : rxKindOf p b = none := by
  refine Option.eq_none_iff_forall_ne_some.2 fun k hk => ?_
  have hb := eq_kindCode_of_rxKindOf hk
  cases k with
  | none => exact h0 hb
  | xor => exact h1 hb
  | crc32 =>
    rw [show b = 0x20 from hb, rxKindOf_crc32_absent (h20 hb)] at hk
    cases hk

/-- An unknown kind rejects the frame in `CKSUM_TYPE` (R114, R121). -/
theorem rxKind_unknown {s : State} {b : Byte} (h : rxKindOf s.params b = none) : rxKind b s = s.drop .badKind := by
  simp only [rxKind, h]

/-- Settles O12: a kind byte is known exactly when it is the code of an accepted kind. -/
theorem rxKindByteSelectsChecksum : Obligations.RxKindByteSelectsChecksum := by
  intro s b hen hp hs
  constructor
  · rintro k rfl hk
    exact (receiveByte_kind hen hp hs).trans (congrArg _ (rxKind_kindCode hk))
  · rintro ⟨h0, h1, h20⟩
    exact (receiveByte_kind hen hp hs).trans (congrArg _ (rxKind_unknown (rxKindOf_eq_none h0 h1 h20)))

/-- The state after the second length byte (R116), but for `RX_STATE` and the response. -/
def lengthState (s : State) (len : Half) : State := { s with rx := { s.rx with len := len, acc := accInit s.rx.kind } }

/-- `LEN_MSB`, a length above 0 (R116). -/
theorem rxLenMsb_pos {s : State} {b : Byte} {len : Half} (hl : len = b ++ s.rx.len.extractLsb' 0 8)
    (h : 0 < len.toNat) : rxLenMsb b s = .next (((lengthState s len).goto .payload).event .accepted) := by
  subst hl
  exact if_pos h

/-- `LEN_MSB`, length 0: the payload is complete (R116). -/
theorem rxLenMsb_zero {s : State} {b : Byte} (hl : (0 : Half) = b ++ s.rx.len.extractLsb' 0 8) :
    rxLenMsb b s = afterPayload (lengthState s 0) := by
  simp only [rxLenMsb, ← hl]
  rfl

/-- Settles O13: the bytes of LEN, least significant first; a zero length completes the payload at once. -/
theorem rxLengthBytes : Obligations.RxLengthBytes := by
  intro s b hen hp
  refine ⟨fun hs => receiveByte_lenLsb hen hp hs, fun hs len hl => ⟨fun hpos => ?_, ?_, ?_⟩⟩
  · rw [exec_rxByte, receiveByte_lenMsb hen hp hs, rxLenMsb_pos hl hpos]
    rfl
  · rintro rfl hk
    rw [exec_rxByte, receiveByte_lenMsb hen hp hs, rxLenMsb_zero hl, afterPayload_trailer (by exact hk)]
    rfl
  · rintro rfl hk
    rw [exec_rxByte, receiveByte_lenMsb hen hp hs, rxLenMsb_zero hl, afterPayload_none (by exact hk),
      deliver_eq _ (.inl (show (0 : Half).toNat < 3 by decide))]
    simp [deliveredState, lengthState, hk, accInit]

/-- Settles O14: the overflow test comes before the store (R117). -/
theorem rxPayloadOverflowDropsFrame : Obligations.RxPayloadOverflowDropsFrame := by
  intro s b hen hp hs hc
  rw [exec_rxByte, receiveByte_payload hen hp hs, rxPayload_overflow hc]
  rfl

/-- Settles O15: the store, then the test for the last byte; a frame that fits the buffer is parsed inside it. -/
theorem rxPayloadStoresByte : Obligations.RxPayloadStoresByte := by
  rintro s _ b hen hp hs hc rfl
  rw [exec_rxByte, receiveByte_payload hen hp hs, rxPayload_store hc]
  refine ⟨fun hl => ?_, fun hl hk => ?_, fun hl hk => ?_, storedState_bufByte s b⟩
  · rw [if_neg hl]
    rfl
  · rw [if_pos hl, afterPayload_trailer (by exact hk)]
    rfl
  · have hfit : (storedState s b).rx.len.toNat < 3 ∨ 3 ≤ (storedState s b).params.rxCap.toNat := by
      have hlen : (storedState s b).rx.len.toNat = s.rx.count.toNat + 1 := hl ▸ storedState_count b hc
      have hcap : s.rx.count.toNat < (storedState s b).params.rxCap.toNat := hc
      omega
    rw [if_pos hl, afterPayload_none (by exact hk), deliver_eq _ hfit]
    rfl

/-- Settles O16: a trailer byte is collected; the comparison waits for the last (R119, R120). -/
theorem rxTrailerCollectedThenCompared : Obligations.RxTrailerCollectedThenCompared := by
  rintro s _ b hen hp hs h7 rfl
  rw [exec_rxByte, receiveByte_cksum hen hp hs]
  refine ⟨fun hw => rxCksum_more hw, fun hw => ⟨fun hne => ?_, fun heq hfit => ?_⟩⟩
  · rw [rxCksum_last h7 hw, if_neg (by exact hne)]
    rfl
  · rw [rxCksum_last h7 hw, if_pos (by exact heq), deliver_eq _ (by exact hfit)]
    rfl

/-! ## Deliveries and rejections -/

/-- A byte answered (OK, 1) has delivered; what it did before the delivery touched neither `ERR` nor the
parameters (R126). -/
theorem RxOutcome.delivered {b : Byte} {s t : State} (h : RxOutcome b s t)
    (hr : t.responses = s.responses ++ [⟨.ok, 1⟩]) :
    ∃ u, t = deliveredState u ∧ u.err = s.err ∧ u.params = s.params := by
  cases h
  case emptyDelivered | storedDelivered | matched => exact ⟨_, rfl, rfl, rfl⟩
  all_goals exact absurd (List.append_cancel_left hr) (by decide)

/-- Settles O17: every delivery leaves `deliveredState`, whose latches and parse are read off. -/
theorem deliveryLatchesAndParse : Obligations.DeliveryLatchesAndParse := by
  intro s t b _ h hr
  obtain ⟨u, rfl, herr, hparams⟩ := (receiveByte_next h).delivered hr
  refine ⟨rfl, rfl, fun hshort => ?_, fun hlong => ?_⟩
  · have hlen : u.rx.len.toNat < 3 := hshort
    simp [deliveredState, hlen, herr]
  · have hlen : ¬ u.rx.len.toNat < 3 := Nat.not_lt.2 hlong
    have hbody : (u.rx.len - 3).toNat = u.rx.len.toNat - 3 := by bv_omega
    simp only [deliveredState, if_neg hlen, herr, hparams, hbody]
    exact ⟨trivial, trivial, rfl, rfl, trivial, by simp⟩

/-- Settles O19: the three rules that answer (OK, 2), each with its state and its flag (R114, R117, R120, R121). -/
theorem rejectionKeepsEverythingElse : Obligations.RejectionKeepsEverythingElse := by
  intro s t b h hr
  cases receiveByte_next h
  case badKind hs _ =>
    exact ⟨rfl, rfl, rfl, rfl, rfl, fun _ => ⟨rfl, rfl⟩, rfl, rfl, rfl, rfl, rfl, rfl, rfl, rfl, rfl, rfl, .inl ⟨hs, rfl⟩⟩
  case overflow hs _ =>
    exact ⟨rfl, rfl, rfl, rfl, rfl, fun _ => ⟨rfl, rfl⟩, rfl, rfl, rfl, rfl, rfl, rfl, rfl, rfl, rfl, rfl,
      .inr (.inl ⟨hs, rfl⟩)⟩
  case mismatched hs _ _ _ =>
    exact ⟨rfl, rfl, rfl, rfl, rfl, fun hne => absurd hs hne, rfl, rfl, rfl, rfl, rfl, rfl, rfl, rfl, rfl, rfl,
      .inr (.inr ⟨hs, rfl⟩)⟩
  all_goals exact absurd (List.append_cancel_left hr) (by decide)

/-! ## No timeout -/

/-- Only a received byte and `FRM_RESET` write the receive sequencer (R124). -/
theorem ExecOutcome.rx_eq {i : Instr} {s t : State} (h : ExecOutcome i s t) (hi : lineByte i = none)
    (hreset : i ≠ .frmReset) : t.rx = s.rx := by
  cases h
  case received hb _ => simp [hi] at hb
  case frmReset => exact absurd rfl hreset
  all_goals rfl

/-- Settles O48: by induction on the sequence, each instruction keeping the receive sequencer. -/
theorem partialFrameHasNoTimeout : Obligations.PartialFrameHasNoTimeout := by
  intro is
  induction is with
  | nil =>
    intro s t _ h
    cases h
    rfl
  | cons i is ih =>
    intro s t hall h
    obtain ⟨⟨hline, hreset⟩, hrest⟩ := List.forall_mem_cons.1 hall
    rw [runInstrs_cons, andThen_eq_next] at h
    obtain ⟨u, hu, ht⟩ := h
    exact (ih u t hrest ht).trans ((exec_next hu).rx_eq hline hreset)

/-! ## A payload in the buffer -/

/-- The buffer after a payload has been stored from address 0 on (R118). -/
def storePayload (m : Memory) (p : List Byte) : Memory := p.zipIdx.foldl (fun m c => Memory.set m c.2 c.1) m

@[simp] theorem storePayload_nil (m : Memory) : storePayload m [] = m := rfl

theorem storePayload_concat (m : Memory) (p : List Byte) (b : Byte) :
    storePayload m (p ++ [b]) = Memory.set (storePayload m p) p.length b := by
  simp [storePayload, List.zipIdx_append]

/-- A stored payload reads back, and every address beyond it as before. -/
theorem get_storePayload (m : Memory) (p : List Byte) (a : Nat) :
    Memory.get (storePayload m p) a = p[a]?.or (Memory.get m a) := by
  induction p using List.reverseRecOn with
  | nil => rfl
  | append_singleton p b ih =>
    rw [storePayload_concat, Memory.get_set, ih]
    rcases Nat.lt_trichotomy a p.length with hlt | rfl | hgt
    · simp [Nat.ne_of_lt hlt, List.getElem?_append_left hlt]
    · simp
    · have hout : (p ++ [b]).length ≤ a := by simpa using hgt
      simp [Nat.ne_of_gt hgt, List.getElem?_eq_none hout, List.getElem?_eq_none (Nat.le_of_lt hgt)]

theorem payloadAcc_concat (k : CksumKind) (p : List Byte) (b : Byte) :
    payloadAcc k (p ++ [b]) = accUpdate k (payloadAcc k p) b := by
  simp [payloadAcc]

/-! ## A trailer as one number -/

/-- What `CK_RECV` holds when these trailer bytes have been collected, the first one lowest (R119). -/
def trailerWord : List Byte → Word
  | [] => 0
  | b :: q => b.setWidth 32 ||| (trailerWord q <<< 8)

theorem trailerWord_concat (q : List Byte) (b : Byte) :
    trailerWord (q ++ [b]) = trailerWord q ||| (b.setWidth 32 <<< (8 * q.length)) := by
  induction q with
  | nil => simp [trailerWord]
  | cons c q ih =>
    rw [List.cons_append, trailerWord, ih, trailerWord, BitVec.shiftLeft_or_distrib, ← BitVec.or_assoc,
      ← BitVec.shiftLeft_add, List.length_cons, Nat.mul_succ]

/-- The number has the bytes it was collected from. -/
theorem extractLsb'_trailerWord {q : List Byte} {i : Nat} (hi : i < q.length) (h4 : i < 4) :
    (trailerWord q).extractLsb' (8 * i) 8 = q[i] := by
  induction q generalizing i with
  | nil => exact absurd hi (Nat.not_lt_zero i)
  | cons b q ih =>
    cases i with
    | zero =>
      ext j hj
      simp [trailerWord, hj, show j < 32 by omega]
    | succ i =>
      rw [List.getElem_cons_succ, ← ih (Nat.lt_of_succ_lt_succ hi) (by omega)]
      ext j hj
      have hpos : 8 * (i + 1) + j - 8 = 8 * i + j := by omega
      simp [trailerWord, hpos, BitVec.getLsbD_of_ge b (8 * (i + 1) + j) (by omega),
        show 8 * (i + 1) + j < 32 by omega, show ¬ 8 * (i + 1) + j < 8 by omega, show 8 * i + j < 32 by omega]

/-- Four bytes of a number are collected into the number (20_memory.md R64). -/
theorem trailerWord_valueBytes (v : Word) : trailerWord (valueBytes v) = v := by
  have hbyte (i : Nat) (h : i < 4) : (trailerWord (valueBytes v)).extractLsb' (8 * i) 8 = (valueBytes v)[i] :=
    extractLsb'_trailerWord h h
  have h0 := hbyte 0 (by decide)
  have h1 := hbyte 1 (by decide)
  have h2 := hbyte 2 (by decide)
  have h3 := hbyte 3 (by decide)
  apply BitVec.eq_of_toNat_eq
  rw [toNat_eq_weighted_bytes, h0, h1, h2, h3, toNat_eq_weighted_bytes v]
  rfl

/-- The trailer bytes of a checksum are collected into its final value (42_checksum.md R165). -/
theorem trailerWord_trailerBytes (k : CksumKind) (acc : Word) : trailerWord (trailerBytes k acc) = accFinal k acc := by
  cases k with
  | none => rfl
  | xor =>
    ext i hi
    simp [trailerBytes, trailerWord, accFinal, hi]
  | crc32 => exact trailerWord_valueBytes (accFinal .crc32 acc)

/-- Of all trailers of the kind's width only the right one compares equal (R120). -/
theorem trailerWord_eq_accFinal_iff {k : CksumKind} {q : List Byte} (acc : Word) (hq : q.length = trailerWidth k) :
    trailerWord q = accFinal k acc ↔ q = trailerBytes k acc := by
  constructor
  · intro h
    refine List.ext_getElem (hq.trans (length_trailerBytes k acc).symm) fun i hi hi' => ?_
    have h4 : i < 4 := (hq ▸ hi).trans_le (trailerWidth_le k)
    rw [← extractLsb'_trailerWord hi h4, ← extractLsb'_trailerWord hi' h4, h, trailerWord_trailerBytes]
  · rintro rfl
    exact trailerWord_trailerBytes k acc

/-! ## A frame in progress

The receiver's whole state in the middle of a frame is a function of the state it began in and of the frame's bytes so
far. `FramePart` names those bytes by what the receiver has read from them, `FramePart.after` is that function, and one
equation per state of the receiver takes a part to the next. -/

/-- The four bytes before the payload (30_encoding.md R80). -/
def frameHeader (k : CksumKind) (len : Half) : List Byte :=
  [0x01, kindCode k, len.extractLsb' 0 8, len.extractLsb' 8 8]

theorem frameBytes_eq (k : CksumKind) (p : List Byte) :
    frameBytes k p = frameHeader k (BitVec.ofNat 16 p.length) ++ p ++ trailerBytes k (payloadAcc k p) := rfl

/-- How much of a frame has been received, from nothing to all but the last byte. -/
inductive FramePart
  | start
  | sof
  | kind (k : CksumKind)
  | lenLsb (k : CksumKind) (lo : Byte)
  | payload (k : CksumKind) (len : Half) (p : List Byte)
  | trailer (k : CksumKind) (p q : List Byte)

namespace FramePart

/-- The bytes received. -/
def bytes : FramePart → List Byte
  | start => []
  | sof => [0x01]
  | kind k => [0x01, kindCode k]
  | lenLsb k lo => [0x01, kindCode k, lo]
  | payload k len p => frameHeader k len ++ p
  | trailer k p q => frameHeader k (BitVec.ofNat 16 p.length) ++ p ++ q

/-- The payload bytes among them. -/
def stored : FramePart → List Byte
  | payload _ _ p => p
  | trailer _ p _ => p
  | _ => []

/-- The receive sequencer after them, from its value `r` before the frame. -/
def rx (r : RxSeq) : FramePart → RxSeq
  | start => r
  | sof => { r with state := .cksumType, count := 0, ckCount := 0, ckRecv := 0 }
  | kind k => { r with state := .lenLsb, kind := k, count := 0, ckCount := 0, ckRecv := 0 }
  | lenLsb k lo =>
    { r with state := .lenMsb, kind := k, len := lo.setWidth 16, count := 0, ckCount := 0, ckRecv := 0 }
  | payload k len p =>
    { state := .payload, kind := k, len := len, count := BitVec.ofNat 16 p.length, acc := payloadAcc k p,
      ckCount := 0, ckRecv := 0 }
  | trailer k p q =>
    { state := .cksumBytes, kind := k, len := BitVec.ofNat 16 p.length, count := BitVec.ofNat 16 p.length,
      acc := payloadAcc k p, ckCount := BitVec.ofNat 3 q.length, ckRecv := trailerWord q }

/-- The state after them, from `v` before the frame: each was accepted. -/
def after (v : State) (f : FramePart) : State :=
  { v with
    rx := f.rx v.rx
    rxbuf := storePayload v.rxbuf f.stored
    responses := v.responses ++ List.replicate f.bytes.length ⟨.ok, 0⟩ }

/-- The receiver can be here: the kind is accepted, the payload fits the buffer, and the frame is not complete. -/
def Reachable (c : Params) : FramePart → Prop
  | start => True
  | sof => True
  | kind k => acceptsKind c k
  | lenLsb k _ => acceptsKind c k
  | payload k len p => acceptsKind c k ∧ p.length ≤ c.rxCap.toNat ∧ p.length < len.toNat
  | trailer k p q => acceptsKind c k ∧ p.length ≤ c.rxCap.toNat ∧ q.length < trailerWidth k

@[simp] theorem after_start (v : State) : start.after v = v := by
  simp [after, bytes, stored, rx]

/-- One more byte accepted. -/
theorem event_eq_after {v t : State} {f g : FramePart}
    (ht : t = { g.after v with responses := (f.after v).responses })
    (hlen : g.bytes.length = f.bytes.length + 1) : t.event .accepted = g.after v := by
  simp [ht, State.event, State.respond, RxEvent.code, after, hlen, List.replicate_succ']

end FramePart

open FramePart

/-- The state a frame's delivery leaves, from `v` before the frame: every byte but the last was accepted (R125, R126). -/
def deliveredFrame (v : State) (k : CksumKind) (p : List Byte) : State :=
  deliveredState { (trailer k p (trailerBytes k (payloadAcc k p))).after v with
    responses := v.responses ++ List.replicate ((frameBytes k p).length - 1) ⟨.ok, 0⟩ }

/-- The state when the payload is complete: the trailer is owed, or the frame has been delivered (R116, R118). -/
def payloadDone (v : State) (k : CksumKind) (p : List Byte) : State :=
  if k = .none then deliveredFrame v k p else (trailer k p []).after v

theorem toNat_ofNat_length {p : List Byte} {cap : Half} (h : p.length ≤ cap.toNat) :
    (BitVec.ofNat 16 p.length).toNat = p.length := by
  bv_omega

/-- A delivery on the byte after `f` leaves the frame's delivered state, where `u` has taken the whole frame in. -/
theorem deliveredState_eq_deliveredFrame {v u : State} {f : FramePart} {k : CksumKind} {p : List Byte}
    (hu : u.goto .cksumBytes = { (trailer k p (trailerBytes k (payloadAcc k p))).after v with
      responses := (f.after v).responses })
    (hlen : (frameBytes k p).length = f.bytes.length + 1) : deliveredState u = deliveredFrame v k p := by
  have hstate : deliveredState u = deliveredState (u.goto .cksumBytes) := rfl
  rw [hstate, hu, deliveredFrame, hlen]
  rfl

theorem storedState_after {v : State} {k : CksumKind} {len : Half} {p : List Byte} (b : Byte)
    (hcap : p.length < v.params.rxCap.toNat) :
    storedState ((payload k len p).after v) b =
      { (payload k len (p ++ [b])).after v with responses := ((payload k len p).after v).responses } := by
  have hcount := toNat_ofNat_length (Nat.le_of_lt hcap)
  simp [storedState, after, rx, stored, hcount, storePayload_concat, payloadAcc_concat, BitVec.ofNat_add]

theorem collectedState_after {v : State} {k : CksumKind} {p q : List Byte} (b : Byte) (hq : q.length < 7) :
    collectedState ((trailer k p q).after v) b =
      { (trailer k p (q ++ [b])).after v with responses := ((trailer k p q).after v).responses } := by
  have hcount : q.length % 8 = q.length := Nat.mod_eq_of_lt (by omega)
  simp [collectedState, after, rx, stored, hcount, trailerWord_concat]

/-- The end of the payload, `u` being the state in which it is complete. -/
theorem afterPayload_eq_payloadDone {v u : State} {f : FramePart} {k : CksumKind} {p : List Byte}
    (hu : u.goto .cksumBytes = { (trailer k p []).after v with responses := (f.after v).responses })
    (hlen : (trailer k p []).bytes.length = f.bytes.length + 1) (hcap : p.length ≤ v.params.rxCap.toNat) :
    afterPayload u = .next (payloadDone v k p) := by
  have hkind : u.rx.kind = k := congrArg (·.rx.kind) hu
  have hlength : u.rx.len = BitVec.ofNat 16 p.length := congrArg (·.rx.len) hu
  have hparams : u.params = v.params := congrArg (·.params) hu
  have hfit : u.rx.len.toNat < 3 ∨ 3 ≤ u.params.rxCap.toNat := by
    rw [hlength, hparams, toNat_ofNat_length hcap]
    omega
  by_cases hk : k = .none
  · subst hk
    rw [afterPayload_none hkind, deliver_eq u hfit, deliveredState_eq_deliveredFrame hu hlen]
    rfl
  · rw [afterPayload_trailer (hkind ▸ hk), event_eq_after hu hlen, payloadDone, if_neg hk]

theorem extractLsb'_setWidth_byte (b : Byte) : (b.setWidth 16).extractLsb' 0 8 = b := by
  rw [← BitVec.setWidth_eq_extractLsb' (by decide), BitVec.setWidth_setWidth_of_le _ (by decide), BitVec.setWidth_eq]

section Receive
variable {v : State} (hv : receiverReady v)
include hv

theorem receive_sof : receiveByte 0x01 v = .next (sof.after v) := by
  obtain ⟨hs, hen, hp⟩ := hv
  exact receiveByte_idle hen hp hs

theorem receive_kind {k : CksumKind} (hk : acceptsKind v.params k) :
    receiveByte (kindCode k) (sof.after v) = .next ((FramePart.kind k).after v) := by
  obtain ⟨-, hen, hp⟩ := hv
  rw [receiveByte_kind (s := sof.after v) hen hp rfl, rxKind, rxKindOf_kindCode (p := (sof.after v).params) hk]
  exact congrArg _ (event_eq_after rfl rfl)

theorem receive_lenLsb (k : CksumKind) (lo : Byte) :
    receiveByte lo ((FramePart.kind k).after v) = .next ((lenLsb k lo).after v) := by
  obtain ⟨-, hen, hp⟩ := hv
  rw [receiveByte_lenLsb (s := (FramePart.kind k).after v) hen hp rfl]
  exact congrArg _ (event_eq_after rfl rfl)

theorem receive_lenMsb_pos (k : CksumKind) {lo hi : Byte} {len : Half} (hl : len = hi ++ lo) (hpos : 0 < len.toNat) :
    receiveByte hi ((lenLsb k lo).after v) = .next ((payload k len []).after v) := by
  obtain ⟨-, hen, hp⟩ := hv
  have hlen : len = hi ++ ((lenLsb k lo).after v).rx.len.extractLsb' 0 8 :=
    hl.trans (congrArg (hi ++ ·) (extractLsb'_setWidth_byte lo).symm)
  rw [receiveByte_lenMsb (s := (lenLsb k lo).after v) hen hp rfl, rxLenMsb_pos hlen hpos]
  exact congrArg _ (event_eq_after rfl rfl)

theorem receive_lenMsb_zero (k : CksumKind) {lo hi : Byte} (hl : (0 : Half) = hi ++ lo) :
    receiveByte hi ((lenLsb k lo).after v) = .next (payloadDone v k []) := by
  obtain ⟨-, hen, hp⟩ := hv
  have hlen : (0 : Half) = hi ++ ((lenLsb k lo).after v).rx.len.extractLsb' 0 8 :=
    hl.trans (congrArg (hi ++ ·) (extractLsb'_setWidth_byte lo).symm)
  rw [receiveByte_lenMsb (s := (lenLsb k lo).after v) hen hp rfl, rxLenMsb_zero hlen]
  exact afterPayload_eq_payloadDone rfl rfl (Nat.zero_le _)

theorem receive_payload_more (k : CksumKind) {len : Half} {p : List Byte} (b : Byte)
    (hcap : p.length < v.params.rxCap.toNat) (hl : p.length + 1 < len.toNat) :
    receiveByte b ((payload k len p).after v) = .next ((payload k len (p ++ [b])).after v) := by
  obtain ⟨-, hen, hp⟩ := hv
  have hcount := toNat_ofNat_length (Nat.le_of_lt hcap)
  have hmore : ((payload k len p).after v).rx.count + 1 ≠ ((payload k len p).after v).rx.len := by
    simp only [after, rx]
    bv_omega
  rw [receiveByte_payload (s := (payload k len p).after v) hen hp rfl, rxPayload_store (hcount.trans_lt hcap), if_neg hmore]
  exact congrArg _ (event_eq_after (storedState_after b hcap) (by simp [bytes]; omega))

theorem receive_payload_last (k : CksumKind) {len : Half} {p : List Byte} (b : Byte)
    (hcap : p.length < v.params.rxCap.toNat) (hl : len = BitVec.ofNat 16 (p ++ [b]).length) :
    receiveByte b ((payload k len p).after v) = .next (payloadDone v k (p ++ [b])) := by
  obtain ⟨-, hen, hp⟩ := hv
  have hcount := toNat_ofNat_length (Nat.le_of_lt hcap)
  have hlast : ((payload k len p).after v).rx.count + 1 = ((payload k len p).after v).rx.len := by
    simp [after, rx, hl, BitVec.ofNat_add]
  rw [receiveByte_payload (s := (payload k len p).after v) hen hp rfl, rxPayload_store (hcount.trans_lt hcap), if_pos hlast]
  refine afterPayload_eq_payloadDone (f := payload k len p) ?_ ?_ (by simpa using hcap)
  · rw [storedState_after b hcap, hl]
    rfl
  · simp [bytes, frameHeader]

theorem receive_trailer_more (k : CksumKind) (p : List Byte) {q : List Byte} (b : Byte)
    (hq : q.length + 1 < trailerWidth k) :
    receiveByte b ((trailer k p q).after v) = .next ((trailer k p (q ++ [b])).after v) := by
  obtain ⟨-, hen, hp⟩ := hv
  have h7 : q.length < 7 := by have := trailerWidth_le k; omega
  have hcount : ((trailer k p q).after v).rx.ckCount.toNat = q.length := Nat.mod_eq_of_lt (by omega)
  rw [receiveByte_cksum (s := (trailer k p q).after v) hen hp rfl, rxCksum_more (by rw [hcount]; exact hq)]
  exact congrArg _ (event_eq_after (collectedState_after b h7) (by simp [bytes]; omega))

/-- The last trailer byte: the frame is delivered, or rejected for its checksum. -/
theorem receive_trailer_last (k : CksumKind) {p q : List Byte} (b : Byte) (hcap : p.length ≤ v.params.rxCap.toNat)
    (hq : q.length + 1 = trailerWidth k) :
    receiveByte b ((trailer k p q).after v) =
      if q ++ [b] = trailerBytes k (payloadAcc k p) then .next (deliveredFrame v k p)
      else .next ((collectedState ((trailer k p q).after v) b).drop .cksumMismatch) := by
  obtain ⟨-, hen, hp⟩ := hv
  have h7 : q.length < 7 := by have := trailerWidth_le k; omega
  have hcount : ((trailer k p q).after v).rx.ckCount.toNat = q.length := Nat.mod_eq_of_lt (by omega)
  have hcollected := collectedState_after (v := v) (k := k) (p := p) b h7
  have hrecv : (collectedState ((trailer k p q).after v) b).rx.ckRecv = trailerWord (q ++ [b]) :=
    congrArg (·.rx.ckRecv) hcollected
  have heq : trailerWord (q ++ [b]) = accFinal k (payloadAcc k p) ↔ q ++ [b] = trailerBytes k (payloadAcc k p) :=
    trailerWord_eq_accFinal_iff _ (by simpa using hq)
  have hfit : p.length < 3 ∨ 3 ≤ v.params.rxCap.toNat := by omega
  rw [← toNat_ofNat_length hcap] at hfit
  rw [receiveByte_cksum (s := (trailer k p q).after v) hen hp rfl,
    rxCksum_last (by rw [hcount]; exact h7) (by rw [hcount]; exact hq.ge), hrecv]
  by_cases hmatch : q ++ [b] = trailerBytes k (payloadAcc k p)
  · rw [if_pos hmatch, if_pos (by exact heq.2 hmatch), deliver_eq _ (by exact hfit)]
    refine congrArg _ (deliveredState_eq_deliveredFrame (f := trailer k p q) ?_ ?_)
    · rw [hcollected, hmatch]
      rfl
    · simp [frameBytes_eq, bytes, ← hq]
      omega
  · rw [if_neg hmatch, if_neg (by exact mt heq.1 hmatch)]

end Receive

/-! ## Every valid frame is delivered -/

theorem feed_cons (b : Byte) (bs : List Byte) (s : State) :
    feed (b :: bs) s = andThen (receiveByte b s) (feed bs) := rfl

theorem feed_append (as bs : List Byte) (s : State) : feed (as ++ bs) s = andThen (feed as s) (feed bs) := by
  rw [feed, List.map_append, runInstrs_append]
  rfl

theorem feed_singleton (b : Byte) (s : State) : feed [b] s = receiveByte b s := by
  rw [feed_cons]
  cases receiveByte b s <;> rfl

section Feed
variable {v : State} (hv : receiverReady v)
include hv

theorem feed_headerStart {k : CksumKind} (hk : acceptsKind v.params k) (lo : Byte) :
    feed [0x01, kindCode k, lo] v = .next ((lenLsb k lo).after v) := by
  rw [feed_cons, receive_sof hv, andThen_next, feed_cons, receive_kind hv hk, andThen_next, feed_singleton,
    receive_lenLsb hv]

/-- Payload bytes that are not the last are taken in one after another. -/
theorem feed_payload (k : CksumKind) {len : Half} {p : List Byte} (q : List Byte)
    (hcap : p.length + q.length ≤ v.params.rxCap.toNat) (hl : p.length + q.length < len.toNat) :
    feed q ((payload k len p).after v) = .next ((payload k len (p ++ q)).after v) := by
  induction q generalizing p with
  | nil => rw [List.append_nil]; rfl
  | cons b q ih =>
    rw [List.length_cons] at hcap hl
    rw [feed_cons, receive_payload_more hv k b (by omega) (by omega), andThen_next,
      ih (by simp; omega) (by simp; omega), List.append_assoc, List.singleton_append]

/-- The header and the payload of a frame. -/
theorem feed_toPayloadDone {k : CksumKind} {p : List Byte} (hk : acceptsKind v.params k)
    (hcap : p.length ≤ v.params.rxCap.toNat) :
    feed (frameHeader k (BitVec.ofNat 16 p.length) ++ p) v = .next (payloadDone v k p) := by
  have hlen := (BitVec.extractLsb'_append_extractLsb' (x := BitVec.ofNat 16 p.length) (len := 8)).symm
  have hstart := feed_headerStart hv hk ((BitVec.ofNat 16 p.length).extractLsb' 0 8)
  have htoNat := toNat_ofNat_length hcap
  rw [show frameHeader k (BitVec.ofNat 16 p.length) ++ p = [0x01, kindCode k, _] ++ _ :: p from rfl, feed_append, hstart,
    andThen_next, feed_cons]
  rcases List.eq_nil_or_concat p with rfl | ⟨init, b, rfl⟩
  · rw [receive_lenMsb_zero hv k hlen]
    rfl
  · rw [List.concat_eq_append] at *
    have hlast : init.length + 1 ≤ v.params.rxCap.toNat := by simpa using hcap
    have hinit : (BitVec.ofNat 16 (init ++ [b]).length).toNat = init.length + 1 := by simpa using htoNat
    rw [receive_lenMsb_pos hv k hlen (by omega), andThen_next, feed_append,
      feed_payload hv k init (by simp; omega) (by simp only [List.length_nil]; omega), andThen_next, feed_singleton]
    exact receive_payload_last hv k b hlast rfl

/-- Trailer bytes that are not the last are collected one after another. -/
theorem feed_trailer (k : CksumKind) (p : List Byte) {q : List Byte} (q' : List Byte)
    (hq : q.length + q'.length < trailerWidth k) :
    feed q' ((trailer k p q).after v) = .next ((trailer k p (q ++ q')).after v) := by
  induction q' generalizing q with
  | nil => rw [List.append_nil]; rfl
  | cons b q' ih =>
    rw [List.length_cons] at hq
    rw [feed_cons, receive_trailer_more hv k p b (by omega), andThen_next, ih (by simp; omega), List.append_assoc,
      List.singleton_append]

/-- The trailer that belongs to the payload. -/
theorem feed_trailerBytes (k : CksumKind) {p : List Byte} (hcap : p.length ≤ v.params.rxCap.toNat) :
    feed (trailerBytes k (payloadAcc k p)) (payloadDone v k p) = .next (deliveredFrame v k p) := by
  by_cases hk : k = .none
  · subst hk
    rfl
  · have hwidth := length_trailerBytes k (payloadAcc k p)
    have hpos := mt (trailerWidth_eq_zero k).1 hk
    rw [payloadDone, if_neg hk]
    rcases List.eq_nil_or_concat (trailerBytes k (payloadAcc k p)) with hnil | ⟨init, b, hlast⟩
    · rw [hnil] at hwidth
      exact absurd hwidth.symm hpos
    · rw [List.concat_eq_append] at hlast
      have hinit : init.length + 1 = trailerWidth k := by simpa [hlast] using hwidth
      rw [hlast, feed_append, feed_trailer hv k p init (by simp; omega), andThen_next, feed_singleton, List.nil_append,
        receive_trailer_last hv k b hcap hinit, if_pos hlast.symm]

/-- A whole frame that the receiver accepts is delivered (R125). -/
theorem feed_frameBytes {k : CksumKind} {p : List Byte} (hk : acceptsKind v.params k)
    (hcap : p.length ≤ v.params.rxCap.toNat) : feed (frameBytes k p) v = .next (deliveredFrame v k p) := by
  rw [frameBytes_eq, feed_append, feed_toPayloadDone hv hk hcap, andThen_next, feed_trailerBytes hv k hcap]

end Feed

/-- What is delivered is the payload. -/
theorem bufHolds_deliveredFrame (v : State) (k : CksumKind) (p : List Byte) : bufHolds (deliveredFrame v k p) 0 p := by
  intro i hi
  exact (get_storePayload v.rxbuf p (0 + i)).trans (by simp [hi])

/-- Bytes of the buffer beyond the payload stay as they were. -/
theorem bufByte_deliveredFrame (v : State) (k : CksumKind) {p : List Byte} {a : Nat} (ha : p.length ≤ a) :
    (deliveredFrame v k p).bufByte a = v.bufByte a := by
  have hget : Memory.get (deliveredFrame v k p).rxbuf a = Memory.get v.rxbuf a :=
    (get_storePayload v.rxbuf p a).trans (by simp [ha])
  simp only [State.bufByte, hget]

/-- Settles O21: the frame is taken in part by part, the payload and the trailer by induction. -/
theorem receiverDeliversEveryValidFrame : Obligations.ReceiverDeliversEveryValidFrame := by
  intro s k p hs hk hcap
  have herr : (deliveredFrame s k p).err = if p.length < 3 then s.err ||| 0x08 else s.err :=
    congrArg (if · < 3 then s.err ||| 0x08 else s.err) (toNat_ofNat_length hcap)
  exact ⟨_, feed_frameBytes hs hk hcap, rfl, rfl, rfl, bufHolds_deliveredFrame s k p,
    fun a => bufByte_deliveredFrame s k, herr, rfl, rfl, rfl, rfl, rfl⟩

/-- Settles O18: the frames with an empty payload. -/
theorem zeroLengthFramesAreDelivered : Obligations.ZeroLengthFramesAreDelivered := by
  intro s hs
  refine ⟨⟨_, feed_frameBytes hs (k := .none) (p := []) nofun (Nat.zero_le _), List.append_assoc _ _ _, rfl, rfl⟩,
    ⟨_, feed_frameBytes hs (k := .xor) (p := []) nofun (Nat.zero_le _), List.append_assoc _ _ _, rfl, rfl⟩, fun hcrc => ?_⟩
  exact ⟨_, feed_frameBytes hs (k := .crc32) (p := []) (fun _ => hcrc) (Nat.zero_le _), rfl, rfl, rfl⟩

/-! ## No other frame is delivered -/

/-- What a byte received after part `f` of a frame that began in `v` can lead to. -/
inductive AfterByte (v : State) (f : FramePart) (b : Byte) : State → Prop
  /-- A longer part of the frame. -/
  | grown (g : FramePart) (hg : g.Reachable v.params) (hb : g.bytes = f.bytes ++ [b]) : AfterByte v f b (g.after v)
  /-- The frame rejected, or no frame begun: the receiver is ready for another. -/
  | ended (t : State) (ht : receiverReady t) (hparams : t.params = v.params)
      (hr : t.responses ≠ (f.after v).responses ++ [⟨.ok, 1⟩]) : AfterByte v f b t
  /-- The frame complete and delivered. -/
  | delivered (k : CksumKind) (p : List Byte) (hk : acceptsKind v.params k) (hcap : p.length ≤ v.params.rxCap.toNat)
      (hb : f.bytes ++ [b] = frameBytes k p) : AfterByte v f b (deliveredFrame v k p)

/-- A longer part has been answered by one (OK, 0) more. -/
theorem responses_after_of_bytes {v : State} {f g : FramePart} {b : Byte} (hb : g.bytes = f.bytes ++ [b]) :
    (g.after v).responses = (f.after v).responses ++ [⟨.ok, 0⟩] := by
  simp [after, hb, List.replicate_succ']

/-- The byte that makes the frame whole has been answered (OK, 1). -/
theorem responses_deliveredFrame_of_bytes {v : State} {f : FramePart} {b : Byte} {k : CksumKind} {p : List Byte}
    (hb : f.bytes ++ [b] = frameBytes k p) :
    (deliveredFrame v k p).responses = (f.after v).responses ++ [⟨.ok, 1⟩] := by
  have hlen : (frameBytes k p).length - 1 = f.bytes.length := by simp [← hb]
  rw [deliveredFrame, hlen]
  rfl

/-- The payload complete: its trailer is owed, or the frame is whole. -/
theorem afterByte_payloadDone {v : State} {f : FramePart} {b : Byte} {k : CksumKind} {p : List Byte}
    (hk : acceptsKind v.params k) (hcap : p.length ≤ v.params.rxCap.toNat)
    (hb : frameHeader k (BitVec.ofNat 16 p.length) ++ p = f.bytes ++ [b]) : AfterByte v f b (payloadDone v k p) := by
  by_cases hnone : k = .none
  · subst hnone
    refine .delivered .none p hk hcap ?_
    rw [← hb, frameBytes_eq]
    exact (List.append_nil _).symm
  · rw [payloadDone, if_neg hnone]
    refine .grown _ ⟨hk, hcap, ?_⟩ ((List.append_nil _).trans hb)
    exact Nat.pos_of_ne_zero (mt (trailerWidth_eq_zero k).1 hnone)

/-- A rejection leaves the receiver ready (R121). -/
theorem afterByte_drop {v u : State} {f : FramePart} {b : Byte} (hv : receiverReady v) (flag : ErrFlag)
    (hen : u.rxEn = v.rxEn) (hdlv : u.dlv = v.dlv) (hparams : u.params = v.params)
    (hr : u.responses = (f.after v).responses) : AfterByte v f b (u.drop flag) := by
  obtain ⟨-, hven, hvp⟩ := hv
  refine .ended _ ⟨rfl, hen.trans hven, (congrArg (·.pending) hdlv).trans hvp⟩ hparams ?_
  rw [State.drop_responses, hr]
  exact mt List.append_cancel_left (by decide)

section Receive
variable {v : State} (hv : receiverReady v)
include hv

theorem exists_afterByte_start (b : Byte) : ∃ t, receiveByte b v = .next t ∧ AfterByte v start b t := by
  obtain ⟨hs, hen, hp⟩ := hv
  by_cases hb : b = 0x01
  · subst hb
    exact ⟨_, receive_sof ⟨hs, hen, hp⟩, .grown sof trivial rfl⟩
  · refine ⟨_, (rxIdleHuntsForSof v b hen hp hs).2 hb, .ended _ ⟨hs, hen, hp⟩ rfl ?_⟩
    rw [after_start]
    exact mt List.append_cancel_left (by decide)

theorem exists_afterByte_sof (b : Byte) : ∃ t, receiveByte b (sof.after v) = .next t ∧ AfterByte v sof b t := by
  cases hk : rxKindOf v.params b with
  | some k =>
    have hb := eq_kindCode_of_rxKindOf hk
    have hacc := acceptsKind_of_rxKindOf hk
    subst hb
    exact ⟨_, receive_kind hv hacc, .grown (.kind k) hacc rfl⟩
  | none =>
    have ⟨_, hen, hp⟩ := hv
    refine ⟨_, receiveByte_kind (s := sof.after v) hen hp rfl, ?_⟩
    rw [rxKind_unknown (s := sof.after v) hk]
    exact afterByte_drop hv _ rfl rfl rfl rfl

theorem exists_afterByte_lenLsb {k : CksumKind} (hk : acceptsKind v.params k) (lo b : Byte) :
    ∃ t, receiveByte b ((lenLsb k lo).after v) = .next t ∧ AfterByte v (lenLsb k lo) b t := by
  obtain ⟨len, hlen⟩ : ∃ len : Half, len = b ++ lo := ⟨_, rfl⟩
  have hheader : frameHeader k len = (lenLsb k lo).bytes ++ [b] := by
    rw [frameHeader, hlen, BitVec.extractLsb'_append_eq_right, BitVec.extractLsb'_append_eq_left]
    rfl
  rcases Nat.eq_zero_or_pos len.toNat with hzero | hpos
  · obtain rfl : len = 0 := BitVec.eq_of_toNat_eq hzero
    exact ⟨_, receive_lenMsb_zero hv k hlen, afterByte_payloadDone hk (Nat.zero_le _) ((List.append_nil _).trans hheader)⟩
  · exact ⟨_, receive_lenMsb_pos hv k hlen hpos,
      .grown (.payload k len []) ⟨hk, Nat.zero_le _, hpos⟩ ((List.append_nil _).trans hheader)⟩

theorem exists_afterByte_payload {k : CksumKind} {len : Half} {p : List Byte} (hf : (payload k len p).Reachable v.params)
    (b : Byte) : ∃ t, receiveByte b ((payload k len p).after v) = .next t ∧ AfterByte v (payload k len p) b t := by
  obtain ⟨hk, hcap, hlen⟩ := hf
  rcases Nat.lt_or_eq_of_le hcap with hroom | hfull
  · have hcap' : (p ++ [b]).length ≤ v.params.rxCap.toNat := by simpa using hroom
    by_cases hlast : p.length + 1 = len.toNat
    · have hl : len = BitVec.ofNat 16 (p ++ [b]).length := by simp [hlast]
      refine ⟨_, receive_payload_last hv k b hroom hl, afterByte_payloadDone hk hcap' ?_⟩
      rw [← hl]
      exact (List.append_assoc _ _ _).symm
    · have hmore : p.length + 1 < len.toNat := by omega
      refine ⟨_, receive_payload_more hv k b hroom hmore, .grown _ ⟨hk, hcap', ?_⟩ (List.append_assoc _ _ _).symm⟩
      simpa using hmore
  · have ⟨_, hen, hp⟩ := hv
    have hcount : ((payload k len p).after v).rx.count = v.params.rxCap := by simp [after, rx, hfull]
    refine ⟨_, (receiveByte_payload (s := (payload k len p).after v) hen hp rfl).trans (rxPayload_overflow hcount), ?_⟩
    exact afterByte_drop hv _ rfl rfl rfl rfl

theorem exists_afterByte_trailer {k : CksumKind} {p q : List Byte} (hf : (trailer k p q).Reachable v.params) (b : Byte) :
    ∃ t, receiveByte b ((trailer k p q).after v) = .next t ∧ AfterByte v (trailer k p q) b t := by
  obtain ⟨hk, hcap, hq⟩ := hf
  by_cases hlast : q.length + 1 = trailerWidth k
  · rw [receive_trailer_last hv k b hcap hlast]
    split
    next hmatch =>
      refine ⟨_, rfl, .delivered k p hk hcap ?_⟩
      rw [frameBytes_eq, ← hmatch]
      exact List.append_assoc _ _ _
    · exact ⟨_, rfl, afterByte_drop hv _ rfl rfl rfl rfl⟩
  · refine ⟨_, receive_trailer_more hv k p b (by omega), .grown _ ⟨hk, hcap, ?_⟩ (List.append_assoc _ _ _).symm⟩
    rw [List.length_append, List.length_singleton]
    omega

/-- A received byte, wherever in a frame it comes. -/
theorem exists_afterByte {f : FramePart} (hf : f.Reachable v.params) (b : Byte) :
    ∃ t, receiveByte b (f.after v) = .next t ∧ AfterByte v f b t := by
  cases f with
  | start => rw [after_start]; exact exists_afterByte_start hv b
  | sof => exact exists_afterByte_sof hv b
  | kind k => exact ⟨_, receive_lenLsb hv k b, .grown (.lenLsb k b) hf rfl⟩
  | lenLsb k lo => exact exists_afterByte_lenLsb hv hf lo b
  | payload k len p => exact exists_afterByte_payload hv hf b
  | trailer k p q => exact exists_afterByte_trailer hv hf b

theorem afterByte_of_receive {f : FramePart} {b : Byte} {t : State} (hf : f.Reachable v.params)
    (h : receiveByte b (f.after v) = .next t) : AfterByte v f b t := by
  obtain ⟨t', ht', hafter⟩ := exists_afterByte hv hf b
  rw [h] at ht'
  cases ht'
  exact hafter

end Receive

/-- After the bytes `bs` from `s` the receiver is in a frame, or at its start, that began in `IDLE`. -/
def InFrame (s : State) (bs : List Byte) (t : State) : Prop :=
  ∃ (pre : List Byte) (v : State) (f : FramePart), feed pre s = .next v ∧ receiverReady v ∧ v.params = s.params ∧
    f.Reachable s.params ∧ bs = pre ++ f.bytes ∧ t = f.after v

theorem inFrame_ready {s t : State} {bs : List Byte} (h : feed bs s = .next t) (ht : receiverReady t)
    (hparams : t.params = s.params) : InFrame s bs t :=
  ⟨bs, t, start, h, ht, hparams, trivial, (List.append_nil bs).symm, (after_start t).symm⟩

/-- A byte that does not deliver leaves the receiver in a frame. -/
theorem InFrame.append {s u t : State} {bs : List Byte} {b : Byte} (hu : InFrame s bs u)
    (hfeed : feed (bs ++ [b]) s = .next t) (h : receiveByte b u = .next t) (hr : t.responses ≠ u.responses ++ [⟨.ok, 1⟩]) :
    InFrame s (bs ++ [b]) t := by
  obtain ⟨pre, v, f, hpre, hv, hparams, hf, rfl, rfl⟩ := hu
  rw [← hparams] at hf
  cases afterByte_of_receive hv hf h with
  | grown g hg hb => exact ⟨pre, v, g, hpre, hv, hparams, hparams ▸ hg, by rw [hb, List.append_assoc], rfl⟩
  | ended _ ht hp _ => exact inFrame_ready hfeed ht (hp.trans hparams)
  | delivered k p _ _ hb => exact absurd (responses_deliveredFrame_of_bytes hb) hr

theorem exists_receive_of_feed_append {bs : List Byte} {b : Byte} {s t : State} (h : feed (bs ++ [b]) s = .next t) :
    ∃ u, feed bs s = .next u ∧ receiveByte b u = .next t := by
  rw [feed_append, andThen_eq_next] at h
  obtain ⟨u, hu, ht⟩ := h
  exact ⟨u, hu, by rwa [feed_singleton] at ht⟩

/-- Each byte fed is answered by one response. -/
theorem responses_of_feed (bs : List Byte) {s t : State} (h : feed bs s = .next t) :
    ∃ evs, t.responses = s.responses ++ evs := by
  induction bs using List.reverseRecOn generalizing t with
  | nil => cases h; exact ⟨[], (List.append_nil _).symm⟩
  | append_singleton bs b ih =>
    obtain ⟨u, hu, ht⟩ := exists_receive_of_feed_append h
    obtain ⟨evs, hevs⟩ := ih hu
    obtain ⟨⟨r, hr⟩, -⟩ := (receiveByte_next ht).one_response
    exact ⟨evs ++ [r], by rw [hr, hevs, List.append_assoc]⟩

/-- As long as nothing has been delivered, the receiver is in a frame that began in `IDLE`. -/
theorem inFrame_feed {s t : State} (hs : receiverReady s) (bs : List Byte) {evs : List Response}
    (h : feed bs s = .next t) (hr : t.responses = s.responses ++ evs) (hevs : ∀ r ∈ evs, r ≠ ⟨.ok, 1⟩) :
    InFrame s bs t := by
  induction bs using List.reverseRecOn generalizing t evs with
  | nil => cases h; exact inFrame_ready rfl hs rfl
  | append_singleton bs b ih =>
    obtain ⟨u, hu, ht⟩ := exists_receive_of_feed_append h
    obtain ⟨evs', hevs'⟩ := responses_of_feed bs hu
    obtain ⟨⟨r, hr'⟩, -⟩ := (receiveByte_next ht).one_response
    obtain rfl : evs = evs' ++ [r] := by
      rw [hr', hevs', List.append_assoc] at hr
      exact (List.append_cancel_left hr).symm
    refine (ih hu hevs' fun x hx => hevs x (by simp [hx])).append h ht ?_
    rw [hr']
    exact mt List.append_cancel_left (by simpa using hevs r (by simp))

/-- Settles O22: before the last byte the receiver is in a frame that began in `IDLE`, and of the ways on from there only
a whole valid frame is answered (OK, 1). -/
theorem receiverDeliversOnlyValidFrames : Obligations.ReceiverDeliversOnlyValidFrames := by
  intro s t bs evs hs h hr hevs
  rcases List.eq_nil_or_concat bs with rfl | ⟨init, b, rfl⟩
  · cases h
    simp at hr
  rw [List.concat_eq_append] at *
  obtain ⟨u, hu, ht⟩ := exists_receive_of_feed_append h
  obtain ⟨evs', hevs'⟩ := responses_of_feed init hu
  obtain ⟨⟨r, hr'⟩, -⟩ := (receiveByte_next ht).one_response
  obtain ⟨hpre, hlast⟩ : u.responses = s.responses ++ evs ∧ [r] = [⟨.ok, 1⟩] :=
    List.append_inj' (hr'.symm.trans hr) rfl
  obtain ⟨pre, v, f, hfeed, hv, hparams, hf, rfl, rfl⟩ := inFrame_feed hs init hu hpre hevs
  rw [← hparams] at hf ⊢
  have hone := hlast ▸ hr'
  cases afterByte_of_receive hv hf ht with
  | grown g _ hb =>
    rw [responses_after_of_bytes hb] at hone
    exact absurd (List.append_cancel_left hone) (by decide)
  | ended _ _ _ hne => exact absurd hone hne
  | delivered k p hk hcap hb =>
    exact ⟨pre, k, p, v, by rw [List.append_assoc, hb], hfeed, hv.1, hk, hcap, rfl, bufHolds_deliveredFrame v k p⟩

end Sys2Proof.Machine
end

section
/-! PROOF. Frame transmit (spec 41_frame_tx.md): what a start and a body byte do (O23 to O26), what is sent is what is
delivered (O30, O31), and neither direction reads the other's state (O49, O50). -/

namespace Sys2Proof.Machine

/-! ## The kind of a start -/

/-- A start with the code of a kind that the block has uses that kind (R140). -/
theorem txKindOf_kindCode {p : Params} {k : CksumKind} (h : acceptsKind p k) :
    txKindOf p (kindCode k) = some (k, false) := by
  cases k with
  | none | xor => rfl
  | crc32 => exact if_pos (h rfl)

/-- A CRC32 start is XOR where CRC32 is not present (R143). -/
theorem txKindOf_crc32_absent {p : Params} (h : p.crc32Present = false) : txKindOf p 0x20 = some (.xor, true) :=
  if_neg (by simp [h])

/-- A byte that is no kind's code is unknown (R141). -/
theorem txKindOf_eq_none {p : Params} {b : Byte} (h0 : b ≠ 0x00) (h1 : b ≠ 0x01) (h20 : b ≠ 0x20) :
    txKindOf p b = none := by
  have hcode : kindOfCode b = none := by
    refine Option.eq_none_iff_forall_ne_some.2 fun k hk => ?_
    have hb := eq_kindCode_of_kindOfCode hk
    cases k with
    | none => exact h0 hb
    | xor => exact h1 hb
    | crc32 => exact h20 hb
  simp only [txKindOf, hcode]

/-! ## What a start and a body byte leave -/

/-- A start with payload bytes to come leaves the frame open after its header (R142). -/
theorem exec_txStart_open {s : State} {kind : Byte} {k : CksumKind} {d : Bool} {len : Half}
    (hen : s.txEn = true) (hopen : s.tx.isOpen = false) (hk : txKindOf s.params kind = some (k, d)) (hlen : len ≠ 0) :
    exec (.txStart kind len) s = .next { s with
      tx := { isOpen := true, kind := k, remain := len, acc := accInit k }
      txw := s.txw ++ frameHeader k len
      err := if d then raiseFlag s.err .cksumDowngrade else s.err
      responses := s.responses ++ [⟨.ok, 4⟩] } := by
  rw [exec_txStart, execTxStart_accepted len (txStartKind_eq_some.2 ⟨hen, hopen, hk⟩), startedState, if_neg hlen,
    if_neg hlen, List.append_nil, decide_eq_true hlen]
  rfl

/-- A start without payload emits the whole frame and leaves it closed (R144). -/
theorem exec_txStart_empty {s : State} {kind : Byte} {k : CksumKind} {d : Bool}
    (hen : s.txEn = true) (hopen : s.tx.isOpen = false) (hk : txKindOf s.params kind = some (k, d)) :
    exec (.txStart kind 0) s = .next { s with
      tx := { isOpen := false, kind := k, remain := 0, acc := accInit k }
      txw := s.txw ++ frameBytes k []
      err := if d then raiseFlag s.err .cksumDowngrade else s.err
      responses := s.responses ++ [⟨.ok, BitVec.ofNat 32 (4 + trailerWidth k)⟩] } := by
  rw [exec_txStart, execTxStart_accepted 0 (txStartKind_eq_some.2 ⟨hen, hopen, hk⟩)]
  rfl

/-- A body byte that is not the last (R145). -/
theorem bodyState_more {s : State} (b : Byte) (h : s.tx.remain ≠ 1) :
    bodyState s b = { s with
      txw := s.txw ++ [b]
      tx := { s.tx with remain := s.tx.remain - 1, acc := accUpdate s.tx.kind s.tx.acc b } } := by
  rw [bodyState, if_neg h, decide_eq_true h, Bool.and_true]

/-- The last body byte closes the frame and brings its trailer (R145, R146). -/
theorem bodyState_last {s : State} (b : Byte) (h : s.tx.remain = 1) :
    bodyState s b = { s with
      txw := s.txw ++ b :: trailerBytes s.tx.kind (accUpdate s.tx.kind s.tx.acc b)
      tx := { s.tx with isOpen := false, remain := 0, acc := accUpdate s.tx.kind s.tx.acc b } } := by
  simp [bodyState, h]

/-- The trailer's bytes of each kind, least significant first (42_checksum.md R160, R164, R165). -/
theorem trailerBytes_eq (k : CksumKind) (acc : Word) :
    trailerBytes k acc = match k with
      | .none => []
      | .xor => [acc.extractLsb' 0 8]
      | .crc32 => [(acc ^^^ 0xFFFFFFFF).extractLsb' 0 8, (acc ^^^ 0xFFFFFFFF).extractLsb' 8 8,
          (acc ^^^ 0xFFFFFFFF).extractLsb' 16 8, (acc ^^^ 0xFFFFFFFF).extractLsb' 24 8] := by
  cases k with
  | none | crc32 => rfl
  | xor =>
    have hlow : ((acc.extractLsb' 0 8).setWidth 32).extractLsb' 0 8 = acc.extractLsb' 0 8 := by
      rw [← BitVec.setWidth_eq_extractLsb' (by decide), BitVec.setWidth_setWidth_of_le _ (by decide),
        BitVec.setWidth_eq]
    exact congrArg (fun b => [b]) hlow

/-- Settles O23: a start with payload to come, and the empty frame of each kind. -/
theorem txStartEmitsHeader : Obligations.TxStartEmitsHeader := by
  intro s k len hen hopen hacc
  have hk := txKindOf_kindCode hacc
  refine ⟨exec_txStart_open hen hopen hk, ?_, ?_, ?_⟩
  all_goals
    rintro rfl rfl
    exact exec_txStart_empty hen hopen hk

/-- Settles O24: in each of the three cases the start has no kind. -/
theorem txStartRefused : Obligations.TxStartRefused := by
  intro s kind len h
  have hkind : s.txEn = false ∨ s.tx.isOpen = true ∨ txKindOf s.params kind = none :=
    h.imp_right (.imp_right fun ⟨h0, h1, h20⟩ => txKindOf_eq_none h0 h1 h20)
  exact execTxStart_refused len (txStartKind_eq_none.2 hkind)

/-- Settles O25: the accepted start with the kind XOR and the downgrade flag. -/
theorem txStartDowngradesCrc32 : Obligations.TxStartDowngradesCrc32 := by
  intro s len hen hopen hcrc
  have hk := txKindOf_crc32_absent hcrc
  refine ⟨exec_txStart_open hen hopen hk, ?_⟩
  rintro rfl
  exact exec_txStart_empty hen hopen hk

/-- Settles O26: refused, one byte of several, and the last byte with the trailer. -/
theorem txByteEmitsBody : Obligations.TxByteEmitsBody := by
  rintro s b acc rfl
  refine ⟨execTxByte_refused b, fun hen hopen hr => ?_, fun hen hopen hr => ?_⟩
  · have hlast : s.tx.remain ≠ 1 := by bv_omega
    rw [exec_txByte, execTxByte_accepted b hen hopen (by bv_omega), bodyState_more b hlast, if_neg hlast]
    rfl
  · rw [exec_txByte, execTxByte_accepted b hen hopen (by simp [hr]), bodyState_last b hr, if_pos hr, trailerBytes_eq]
    cases s.tx.kind <;> rfl

/-! ## What is sent is what is delivered -/

/-- Settles O30: what is emitted is the frame, and the receiver delivers every valid one. -/
theorem frameRoundTrip : Obligations.FrameRoundTrip := by
  intro s r kind k d p hen hopen hk hlen hr hcap hacc
  obtain ⟨s', hsend, hw, -, -⟩ := sendFrameEmitsTheFrame s kind k d p _ hen hopen hk (if_pos hlen)
  obtain ⟨r', hfeed, hresp, -, hdlv, hbuf, -⟩ := receiverDeliversEveryValidFrame r k p hr hacc hcap
  exact ⟨s', frameBytes k p, r', hsend, hw, hfeed, hresp, hdlv, hbuf⟩

/-- The header of a datagram, the first three bytes of its frame's payload (43_datagram.md R182). -/
def datagramHeader (session : Half) (type : Byte) : List Byte :=
  [session.extractLsb' 0 8, session.extractLsb' 8 8, type]

theorem length_datagramHeader_append (session : Half) (type : Byte) (body : List Byte) :
    (datagramHeader session type ++ body).length = body.length + 3 := rfl

/-- An accepted datagram start leaves the frame owing the body, with the datagram header sent and in the accumulator; an
empty body leaves it closed after its trailer (43_datagram.md R186). -/
theorem dgStarted_eq (s : State) (k : CksumKind) (d : Bool) {bodyLen : Half} (b₀ b₁ b₂ : Byte)
    (hb : bodyLen.toNat ≤ 0xFFFC) :
    bodyState (bodyState (bodyState (startedState s k d (bodyLen + 3)) b₀) b₁) b₂ = { s with
      err := if d then raiseFlag s.err .cksumDowngrade else s.err
      tx := { isOpen := decide (bodyLen ≠ 0), kind := k, remain := bodyLen, acc := payloadAcc k [b₀, b₁, b₂] }
      txw := s.txw ++ (frameHeader k (bodyLen + 3) ++ [b₀, b₁, b₂] ++
        if bodyLen = 0 then trailerBytes k (payloadAcc k [b₀, b₁, b₂]) else []) } := by
  have h0 : bodyLen + 3 ≠ 0 := by bv_omega
  have h1 : bodyLen + 3 ≠ 1 := by bv_omega
  have h2 : bodyLen + 3 - 1 ≠ 1 := by bv_omega
  have h3 : bodyLen + 3 - 1 - 1 = 1 ↔ bodyLen = 0 := by constructor <;> intro h <;> bv_omega
  have h4 : bodyLen + 3 - 1 - 1 - 1 = bodyLen := by bv_omega
  rw [startedState, if_neg h0, decide_eq_true h0, bodyState_more b₀ h1, bodyState_more b₁ h2]
  simp only [bodyState, h3, h4, ne_eq, Bool.true_and, List.append_nil, List.append_assoc]
  rfl

/-- `DG_TX_START` and its body bytes emit the frame whose payload is the datagram header and the body. -/
theorem runInstrs_dgSend {s : State} {kind : Byte} {k : CksumKind} {d : Bool} (session : Half) (type : Byte)
    {body : List Byte} (hen : s.txEn = true) (hopen : s.tx.isOpen = false)
    (hk : txKindOf s.params kind = some (k, d)) (hlen : body.length ≤ 0xFFFC) :
    ∃ t, runInstrs (.dgTxStart kind session type (BitVec.ofNat 16 body.length) :: body.map .txByte) s = .next t ∧
      t.txw = s.txw ++ frameBytes k (datagramHeader session type ++ body) := by
  have htoNat : (BitVec.ofNat 16 body.length).toNat ≤ 0xFFFC := by bv_omega
  have hframe : BitVec.ofNat 16 (datagramHeader session type ++ body).length = BitVec.ofNat 16 body.length + 3 := by
    rw [length_datagramHeader_append, BitVec.ofNat_add]
    rfl
  rw [runInstrs_cons, exec_dgTxStart,
    execDgTxStart_accepted session type htoNat (txStartKind_eq_some.2 ⟨hen, hopen, hk⟩), andThen_next,
    dgStarted_eq s k d _ _ _ htoNat, frameBytes_eq, hframe]
  by_cases hbody : body = []
  · subst hbody
    exact ⟨_, rfl, rfl⟩
  · have hpos : BitVec.ofNat 16 body.length ≠ 0 := by
      have := List.length_pos_iff.2 hbody
      bv_omega
    rw [if_neg hpos, decide_eq_true hpos, List.append_nil]
    generalize hu : State.respond _ _ _ = u
    obtain ⟨hen', hopen', hremain⟩ :
        u.txEn = true ∧ u.tx.isOpen = true ∧ u.tx.remain = BitVec.ofNat 16 body.length := by
      rw [← hu]
      exact ⟨hen, rfl, rfl⟩
    obtain ⟨t, ht, -, hacc, hw⟩ := runInstrs_txByte_closes hbody (by omega) hen' hopen' hremain
    refine ⟨t, ht, ?_⟩
    rw [hw, hacc, ← hu]
    simp [datagramHeader, payloadAcc]

/-- A delivered payload of three bytes or more parses to its own bytes (43_datagram.md R182 to R185). -/
theorem dg_deliveredFrame (v : State) (k : CksumKind) {p : List Byte} (h3 : 3 ≤ p.length) (hlen : p.length < 65536) :
    (deliveredFrame v k p).dg =
      { ok := true, session := p[1] ++ p[0], type := p[2], bodyLen := BitVec.ofNat 16 p.length - 3,
        isHsk := v.params.hskTypes.contains p[2] } := by
  have hread : ∀ i, (hi : i < p.length) → (deliveredFrame v k p).bufByte i = p[i] := fun i hi => by
    have hget := bufHolds_deliveredFrame v k p i hi
    rw [Nat.zero_add] at hget
    simp only [State.bufByte, hget]
  have hlong : ¬ (BitVec.ofNat 16 p.length).toNat < 3 := by bv_omega
  rw [← hread 0 (by omega), ← hread 1 (by omega), ← hread 2 (by omega)]
  exact if_neg hlong

/-- Settles O31: the datagram is the payload of the frame that is emitted, delivered and parsed. -/
theorem datagramRoundTrip : Obligations.DatagramRoundTrip := by
  intro s r kind type session k d body hen hopen hk hlen hr hcap hacc
  have hlength := length_datagramHeader_append session type body
  obtain ⟨s', hsend, hw⟩ := runInstrs_dgSend session type hen hopen hk hlen
  refine ⟨s', _, _, hsend, hw, feed_frameBytes hr hacc (hlength ▸ hcap), rfl, ?_, fun i hi => ?_⟩
  · have hsession := BitVec.extractLsb'_append_extractLsb' (x := session) (len := 8)
    have hbodyLen : BitVec.ofNat 16 (body.length + 3) - 3 = BitVec.ofNat 16 body.length := by bv_omega
    rw [dg_deliveredFrame r k (by omega) (by omega)]
    simp only [hlength, hbodyLen]
    exact congrArg (fun x => (⟨true, x, type, _, _⟩ : DgLatch)) hsession
  · have hread := bufHolds_deliveredFrame r k (datagramHeader session type ++ body) (3 + i) (by omega)
    rw [Nat.zero_add] at hread
    simpa [datagramHeader, Nat.add_comm 3] using hread

/-! ## Neither direction reads the other's state -/

/-- `s` with another transmit sequencer and another wire. -/
def State.withTransmit (s : State) (x : TxSeq) (w : List Byte) : State := { s with tx := x, txw := w }

/-- With another transmit sequencer and another wire before it, `f` answers the same with those put in its place. -/
def IgnoresTransmit (f : State → Res) : Prop :=
  ∀ (s : State) (x : TxSeq) (w : List Byte),
    f (s.withTransmit x w) = andThen (f s) (fun t => .next (t.withTransmit x w))

/-- The parse reads the buffer, the delivered length and the parameters alone (43_datagram.md R180). -/
theorem dgParse_withTransmit (s : State) (x : TxSeq) (w : List Byte) :
    dgParse (s.withTransmit x w) = (dgParse s).map (·.withTransmit x w) := by
  have hread : ∀ a, memRead (s.withTransmit x w) a = memRead s a := fun _ => rfl
  have hlen : (s.withTransmit x w).dlv.len = s.dlv.len := rfl
  simp only [dgParse, hread, hlen]
  split
  · rfl
  · cases memRead s 1 <;> cases memRead s 0 <;> cases memRead s 2 <;> rfl

theorem deliver_ignoresTransmit : IgnoresTransmit deliver := by
  intro s x w
  have hparse : dgParse { s.withTransmit x w with dlv :=
        { pending := true, len := (s.withTransmit x w).rx.len, kind := (s.withTransmit x w).rx.kind } } = _ :=
    dgParse_withTransmit { s with dlv := { pending := true, len := s.rx.len, kind := s.rx.kind } } x w
  rw [deliver, hparse, deliver]
  cases dgParse _ <;> rfl

theorem afterPayload_ignoresTransmit : IgnoresTransmit afterPayload := by
  intro s x w
  by_cases hk : s.rx.kind = .none
  · rw [afterPayload_none hk, afterPayload_none (by exact hk), deliver_ignoresTransmit]
  · rw [afterPayload_trailer hk, afterPayload_trailer (by exact hk)]
    rfl

theorem rxLenMsb_ignoresTransmit (b : Byte) : IgnoresTransmit (rxLenMsb b) := by
  intro s x w
  by_cases hz : (0 : Half) = b ++ s.rx.len.extractLsb' 0 8
  · rw [rxLenMsb_zero hz, rxLenMsb_zero (s := s.withTransmit x w) hz]
    exact afterPayload_ignoresTransmit (lengthState s 0) x w
  · have hpos : 0 < (b ++ s.rx.len.extractLsb' 0 8 : Half).toNat := by bv_omega
    rw [rxLenMsb_pos rfl hpos, rxLenMsb_pos (s := s.withTransmit x w) rfl hpos]
    rfl

theorem rxPayload_ignoresTransmit (b : Byte) : IgnoresTransmit (rxPayload b) := by
  intro s x w
  rcases Nat.lt_trichotomy s.rx.count.toNat s.params.rxCap.toNat with hlt | heq | hgt
  · rw [rxPayload_store hlt, rxPayload_store (s := s.withTransmit x w) hlt]
    by_cases hlast : s.rx.count + 1 = s.rx.len
    · rw [if_pos hlast, if_pos (by exact hlast)]
      exact afterPayload_ignoresTransmit (storedState s b) x w
    · rw [if_neg hlast, if_neg (by exact hlast)]
      rfl
  · have hfull := BitVec.eq_of_toNat_eq heq
    rw [rxPayload_overflow hfull, rxPayload_overflow (s := s.withTransmit x w) hfull]
    rfl
  · rw [rxPayload_outside hgt, rxPayload_outside (s := s.withTransmit x w) hgt]
    rfl

theorem rxCksum_ignoresTransmit (b : Byte) : IgnoresTransmit (rxCksum b) := by
  intro s x w
  have hck := s.rx.ckCount.isLt
  by_cases hw : s.rx.ckCount.toNat + 1 < trailerWidth s.rx.kind
  · rw [rxCksum_more hw, rxCksum_more (s := s.withTransmit x w) hw]
    rfl
  by_cases h7 : s.rx.ckCount.toNat = 7
  · rw [rxCksum_full h7, rxCksum_full (s := s.withTransmit x w) h7]
    rfl
  have hlt : s.rx.ckCount.toNat < 7 := by omega
  rw [rxCksum_last hlt (by omega), rxCksum_last (s := s.withTransmit x w) hlt (Nat.not_lt.1 hw)]
  by_cases hmatch : (collectedState s b).rx.ckRecv = accFinal s.rx.kind s.rx.acc
  · rw [if_pos hmatch, if_pos (by exact hmatch)]
    exact deliver_ignoresTransmit (collectedState s b) x w
  · rw [if_neg hmatch, if_neg (by exact hmatch)]
    rfl

theorem rxIdle_withTransmit (b : Byte) (s : State) (x : TxSeq) (w : List Byte) :
    rxIdle b (s.withTransmit x w) = (rxIdle b s).withTransmit x w := by
  unfold rxIdle
  split <;> rfl

theorem rxKind_withTransmit (b : Byte) (s : State) (x : TxSeq) (w : List Byte) :
    rxKind b (s.withTransmit x w) = (rxKind b s).withTransmit x w := by
  cases hk : rxKindOf s.params b with
  | none =>
    rw [rxKind_unknown hk, rxKind_unknown (s := s.withTransmit x w) hk]
    rfl
  | some k =>
    have hk' : rxKindOf (s.withTransmit x w).params b = some k := hk
    simp only [rxKind, hk, hk']
    rfl

/-- No check and no state of the receiver reads the transmit side (R148). -/
theorem receiveByte_ignoresTransmit (b : Byte) : IgnoresTransmit (receiveByte b) := by
  intro s x w
  rcases receiveByte_cases b s with ⟨hen, e⟩ | ⟨hen, hp, e⟩ |
    ⟨hen, hp, ⟨hs, e⟩ | ⟨hs, e⟩ | ⟨hs, e⟩ | ⟨hs, e⟩ | ⟨hs, e⟩ | ⟨hs, e⟩⟩ <;> rw [e]
  · exact receiveByte_disabled hen
  · exact receiveByte_busy hen hp
  · rw [receiveByte_idle (s := s.withTransmit x w) hen hp hs, rxIdle_withTransmit]
    rfl
  · rw [receiveByte_kind (s := s.withTransmit x w) hen hp hs, rxKind_withTransmit]
    rfl
  · exact receiveByte_lenLsb hen hp hs
  · rw [receiveByte_lenMsb (s := s.withTransmit x w) hen hp hs, rxLenMsb_ignoresTransmit]
  · rw [receiveByte_payload (s := s.withTransmit x w) hen hp hs, rxPayload_ignoresTransmit]
  · rw [receiveByte_cksum (s := s.withTransmit x w) hen hp hs, rxCksum_ignoresTransmit]

/-- Settles O49: an instruction that carries a received byte is `RX_BYTE` of it, and no receive rule reads the transmit
sequencer or the wire. -/
theorem receiveIgnoresTransmitState : Obligations.ReceiveIgnoresTransmitState := by
  intro i b s x w hi
  rw [exec_of_lineByte _ hi, exec_of_lineByte _ hi]
  exact receiveByte_ignoresTransmit b s x w

/-- Settles O50: whether a transmit command is accepted, and what it then does, is decided by the enable, the transmit
sequencer and the parameters. -/
theorem transmitIgnoresReceiveState : Obligations.TransmitIgnoresReceiveState := by
  intro i s r d g m hi
  cases i
  case txStart kind len =>
    rw [exec_txStart, exec_txStart]
    cases hk : txStartKind s kind with
    | none =>
      rw [execTxStart_refused len hk, execTxStart_refused len (by exact hk)]
      rfl
    | some start =>
      obtain ⟨k, downgraded⟩ := start
      rw [execTxStart_accepted len hk, execTxStart_accepted len (by exact hk)]
      rfl
  case txByte b =>
    rw [exec_txByte, exec_txByte]
    by_cases href : s.txEn = false ∨ s.tx.isOpen = false
    · rw [execTxByte_refused b href, execTxByte_refused b (by exact href)]
      rfl
    obtain ⟨hen, hopen⟩ : s.txEn = true ∧ s.tx.isOpen = true := by simpa using href
    by_cases hr : s.tx.remain = 0
    · rw [execTxByte_underflow b hen hopen hr, execTxByte_underflow b (by exact hen) (by exact hopen) (by exact hr)]
      rfl
    · rw [execTxByte_accepted b hen hopen hr, execTxByte_accepted b (by exact hen) (by exact hopen) (by exact hr)]
      rfl
  case dgTxStart kind session type bodyLen =>
    rw [exec_dgTxStart, exec_dgTxStart]
    by_cases href : 0xFFFC < bodyLen.toNat ∨ txStartKind s kind = none
    · rw [execDgTxStart_refused session type href, execDgTxStart_refused session type (by exact href)]
      rfl
    · obtain ⟨hlen, hk⟩ := not_or.1 href
      obtain ⟨⟨k, d⟩, hk⟩ := Option.ne_none_iff_exists'.1 hk
      have hfits : bodyLen.toNat ≤ 0xFFFC := Nat.not_lt.1 hlen
      rw [execDgTxStart_accepted session type hfits hk, execDgTxStart_accepted session type hfits (by exact hk)]
      rfl
  all_goals cases hi

end Sys2Proof.Machine
end

section
/-! PROOF. The checksum (spec 42_checksum.md): the byte-wise form of the CRC32 update (O33) and the reference values
(O32). -/

namespace Sys2Proof.Machine

/-! ## The CRC32 loop

A turn of R163's loop is linear over XOR, and on an accumulator whose low bits are zero the loop is a shift. -/

/-- The polynomial as a summand: it enters where bit 0 is set. -/
theorem crcShift_eq (c : Word) : crcShift c = (c >>> 1) ^^^ (if c.getLsbD 0 then 0xEDB88320 else 0) := by
  unfold crcShift
  split <;> simp

theorem crcShift_of_bit0_clear {c : Word} (h : c.getLsbD 0 = false) : crcShift c = c >>> 1 :=
  if_neg (Bool.eq_false_iff.1 h)

theorem crcShift_xor (c d : Word) : crcShift (c ^^^ d) = crcShift c ^^^ crcShift d := by
  simp only [crcShift_eq, BitVec.ushiftRight_xor_distrib, BitVec.getLsbD_xor]
  cases c.getLsbD 0 <;> cases d.getLsbD 0 <;> simp [BitVec.xor_assoc, BitVec.xor_comm (d >>> 1)]

theorem crcShifts_xor (n : Nat) (c d : Word) : crcShifts n (c ^^^ d) = crcShifts n c ^^^ crcShifts n d := by
  induction n generalizing c d with
  | zero => rfl
  | succ n ih => simp only [crcShifts, crcShift_xor, ih]

theorem crcShifts_of_low_bits_clear {n : Nat} {c : Word} (h : ∀ i < n, c.getLsbD i = false) :
    crcShifts n c = c >>> n := by
  induction n generalizing c with
  | zero => simp [crcShifts]
  | succ n ih =>
    have hlow : ∀ i < n, (c >>> 1).getLsbD i = false := fun i hi => by
      simpa [Nat.add_comm] using h (i + 1) (Nat.succ_lt_succ hi)
    calc crcShifts (n + 1) c
      _ = crcShifts n (c >>> 1) := by rw [crcShifts, crcShift_of_bit0_clear (h 0 n.succ_pos)]
      _ = c >>> 1 >>> n := ih hlow
      _ = c >>> (n + 1) := by rw [← BitVec.shiftRight_add, Nat.add_comm]

theorem crcShifts_shiftLeft (n : Nat) (c : Word) : crcShifts n (c <<< n) = c <<< n >>> n :=
  crcShifts_of_low_bits_clear fun i hi => by simp [hi]

/-- A word with a data byte folded in, cut at bit 8. -/
theorem xor_byte_eq_high_xor_low (acc : Word) (b : Byte) :
    acc ^^^ b.setWidth 32 = (acc >>> 8 <<< 8) ^^^ (acc.extractLsb' 0 8 ^^^ b).setWidth 32 := by
  refine BitVec.eq_of_getLsbD_eq fun i hi => ?_
  by_cases h : i < 8
  · simp [h, hi]
  · have hb : b.getLsbD i = false := BitVec.getLsbD_of_ge b i (Nat.not_lt.1 h)
    have hi8 : 8 + (i - 8) = i := Nat.add_sub_of_le (Nat.not_lt.1 h)
    simp [h, hi, hb, hi8]

/-- Settles O33: by linearity the bits above the low byte and the low byte with the data pass the eight turns apart, and
the former are only shifted. -/
theorem crcUpdateIsTableDriven : Obligations.CrcUpdateIsTableDriven := by
  intro acc b
  have hhigh : crcShifts 8 (acc >>> 8 <<< 8) = acc >>> 8 := by
    rw [crcShifts_shiftLeft]
    ext i hi
    simpa using BitVec.lt_of_getLsbD
  rw [accUpdate_crc32, xor_byte_eq_high_xor_low, crcShifts_xor, hhigh]

/-! ## The reference values -/

/-- Settles O32: the accumulators of the four payloads that have bytes go turn by turn through the loop; the final
values, the trailers and the XOR values are read off. -/
theorem checksumReferenceValues : Obligations.ChecksumReferenceValues := by
  refine ⟨rfl, rfl, ?zero, rfl, ?ones, rfl, ?three, rfl, ?digits, rfl, ?trailers⟩
  case trailers => decide
  all_goals simp [payloadAcc, accInit, accUpdate_crc32, crcShifts, crcShift]

end Sys2Proof.Machine
end

section
/-! PROOF. The datagram start (spec 43_datagram.md R186, R187): the frame header and the datagram header of an accepted
start (O27), and when a start is refused (O28). -/

namespace Sys2Proof.Machine

/-- A datagram start with a body to come leaves the frame open after the datagram header (R186). -/
theorem exec_dgTxStart_open {s : State} {kind : Byte} {k : CksumKind} {d : Bool} (session : Half) (type : Byte)
    {bodyLen : Half} (hstart : txStartKind s kind = some (k, d)) (hfits : bodyLen.toNat ≤ 0xFFFC) (hbody : bodyLen ≠ 0) :
    exec (.dgTxStart kind session type bodyLen) s = .next { s with
      tx := { isOpen := true, kind := k, remain := bodyLen, acc := payloadAcc k (datagramHeader session type) }
      txw := s.txw ++ (frameHeader k (bodyLen + 3) ++ datagramHeader session type)
      err := if d then raiseFlag s.err .cksumDowngrade else s.err
      responses := s.responses ++ [⟨.ok, 7⟩] } := by
  rw [exec_dgTxStart, execDgTxStart_accepted session type hfits hstart, dgStarted_eq s k d _ _ _ hfits, if_neg hbody,
    if_neg hbody, List.append_nil, decide_eq_true hbody]
  rfl

/-- A datagram start without body emits the whole frame and leaves it closed (R186). -/
theorem exec_dgTxStart_empty {s : State} {kind : Byte} {k : CksumKind} {d : Bool} (session : Half) (type : Byte)
    (hstart : txStartKind s kind = some (k, d)) :
    exec (.dgTxStart kind session type 0) s = .next { s with
      tx := { isOpen := false, kind := k, remain := 0, acc := payloadAcc k (datagramHeader session type) }
      txw := s.txw ++ (frameHeader k 3 ++ datagramHeader session type) ++
        trailerBytes k (payloadAcc k (datagramHeader session type))
      err := if d then raiseFlag s.err .cksumDowngrade else s.err
      responses := s.responses ++ [⟨.ok, BitVec.ofNat 32 (7 + trailerWidth k)⟩] } := by
  have hfits : (0 : Half).toNat ≤ 0xFFFC := by decide
  rw [exec_dgTxStart, execDgTxStart_accepted session type hfits hstart, dgStarted_eq s k d _ _ _ hfits, if_pos rfl,
    if_pos rfl, ← List.append_assoc]
  rfl

/-- Settles O27: the kind is the named one or the downgrade to XOR; the start with a body to come, and the empty one. -/
theorem dgTxStartEmitsFrameAndDatagramHeader : Obligations.DgTxStartEmitsFrameAndDatagramHeader := by
  rintro s kind type session bodyLen _ k _ err hen hopen hfits rfl hkind rfl
  obtain ⟨d, hk, rfl⟩ : ∃ d, txKindOf s.params kind = some (k, d) ∧
      err = if d then raiseFlag s.err .cksumDowngrade else s.err := by
    rcases hkind with ⟨rfl, hacc, rfl⟩ | ⟨rfl, habsent, rfl, rfl⟩
    · exact ⟨false, txKindOf_kindCode hacc, rfl⟩
    · exact ⟨true, txKindOf_crc32_absent habsent, rfl⟩
  have hstart := txStartKind_eq_some.2 ⟨hen, hopen, hk⟩
  refine ⟨exec_dgTxStart_open session type hstart hfits, ?_⟩
  rintro rfl
  exact exec_dgTxStart_empty session type hstart

/-- Settles O28: the body is too long for LEN, or the start has no kind as a `TX_START` has none. -/
theorem dgTxStartRefused : Obligations.DgTxStartRefused := by
  intro s kind type session bodyLen h
  have hrefused : 0xFFFC < bodyLen.toNat ∨ txStartKind s kind = none := h.imp_right fun hstart =>
    txStartKind_eq_none.2 (hstart.imp_right (.imp_right fun ⟨h0, h1, h20⟩ => txKindOf_eq_none h0 h1 h20))
  exact execDgTxStart_refused session type hrefused

end Sys2Proof.Machine
end

section
/-! PROOF. The control commands (spec 44_control.md): what each does to the state (O34, O35, O36, O39, O40, O41, O42), and
the step is total under the invariant (O57). -/

namespace Sys2Proof.Machine

/-! ## The step is total -/

/-- Settles O57: an idle step stays where it is, and under the invariant whatever is presented runs to a next state. -/
theorem stepIsTotal : Obligations.StepIsTotal := by
  intro s inv
  cases hq : s.hostIn with
  | nil => exact ⟨s, step_of_nil hq⟩
  | cons x rest =>
    rw [step_of_cons hq]
    exact present_next_of_machineInv (inv.hostIn rest) x

/-! ## What the control commands share -/

section Shared
variable (s : State)

/-- The illegal answer, field by field: `CMD_ERR` is bit 4 (10_state.md R31). -/
theorem State.illegal_eq :
    s.illegal = { s with err := s.err ||| 0x10, responses := s.responses ++ [⟨.illegal, 0⟩] } := rfl

/-- A flag survives a write of 0 alone (R206). -/
theorem getLsbD_clearFlags (err : BitVec 7) (v : Word) {i : Nat} (hi : i < 7) :
    (clearFlags err v).getLsbD i = (err.getLsbD i && !v.getLsbD i) := by
  simp [clearFlags, hi]

/-- Every register but `CTRL` and `ERR`, and every number that stands for none, is illegal to write (R207). -/
theorem csrWriteValue_illegal {c : Option Csr} (v : Word) (hctrl : c ≠ some .ctrl) (herr : c ≠ some .err) :
    csrWriteValue s c v = s.illegal := by
  unfold csrWriteValue
  split
  · exact absurd rfl hctrl
  · exact absurd rfl herr
  · rfl

theorem State.bufByte_of_get {a : Nat} {v : Byte} (h : Memory.get s.rxbuf a = some v) : s.bufByte a = v := by
  rw [State.bufByte, h]

end Shared

theorem DeliveryLatch.pending_false_eq_self {d : DeliveryLatch} (h : d.pending = false) :
    { d with pending := false } = d := by
  rw [← h]

/-! ## The commands -/

/-- Settles O34: `NOP` is its response. -/
theorem nopDoesNothing : Obligations.NopDoesNothing :=
  exec_nop

/-- Settles O35: the data answered is the old `DLV_PENDING`; clearing it where it is clear leaves the latch as it is. -/
theorem dlvAckReleasesDelivery : Obligations.DlvAckReleasesDelivery := by
  refine fun s => ⟨fun hp => ?_, fun hp => ?_⟩ <;> rw [exec_dlvAck, ackDelivery, hp]
  · rfl
  · rw [DeliveryLatch.pending_false_eq_self hp]
    rfl

/-- Settles O36: `FRM_RESET` writes the reset values and its response. -/
theorem frmResetClearsSequencers : Obligations.FrmResetClearsSequencers :=
  exec_frmReset

/-- Settles O39: number 0x00 is `CTRL`. -/
theorem csrWriteCtrlSetsEnables : Obligations.CsrWriteCtrlSetsEnables :=
  fun s => exec_csrWrite s 0x00

/-- Settles O40: number 0x02 is `ERR`, left with the flags that `clearFlags` keeps. -/
theorem csrWriteErrClearsFlags : Obligations.CsrWriteErrClearsFlags :=
  fun s v => ⟨clearFlags s.err v, exec_csrWrite s 0x02 v, fun _ => getLsbD_clearFlags s.err v⟩

/-- Settles O41: a number other than those of `CTRL` and `ERR` stands for neither. -/
theorem csrWriteElsewhereIsIllegal : Obligations.CsrWriteElsewhereIsIllegal := by
  intro s c v hctrl herr
  rw [exec_csrWrite, csrWriteValue_illegal s v (mt csrOfNumber_eq_ctrl hctrl) (mt csrOfNumber_eq_err herr),
    State.illegal_eq]

/-- Settles O42: the one check is whether the buffer has the address. -/
theorem bufReadReturnsByte : Obligations.BufReadReturnsByte := by
  refine fun s a => ⟨fun hin => ⟨?_, fun v => s.bufByte_of_get⟩, fun hout => ?_⟩ <;> rw [exec_bufRead, execBufRead]
  · rw [if_pos ((s.hasBufByte_iff _).2 hin)]
    rfl
  · rw [if_neg (mt (s.hasBufByte_iff _).1 (Nat.not_lt.2 hout)), State.illegal_eq]

end Sys2Proof.Machine
end

section
/-! PROOF. Errors and events (spec 60_exceptions.md): what a failed command leaves (O44), which flags a step writes
(O45), and when `dlv_irq` rises, falls and holds (O46). -/

namespace Sys2Proof.Machine

/-! ## Failed commands -/

/-- A received byte is answered `OK`, or `BUSY` with nothing done (40_frame_rx.md R112). -/
theorem RxOutcome.ok_or_busy {b : Byte} {s t : State} (h : RxOutcome b s t) :
    (∃ d, t.responses = s.responses ++ [⟨.ok, d⟩]) ∨ t = s.respond .busy 0 := by
  cases h
  case busy => exact .inr rfl
  all_goals exact .inl ⟨_, rfl⟩

/-- The next states of a step that is not answered `OK`, one for each failing status (60_exceptions.md R232). -/
inductive FailedState (s : State) : State → Prop
  | busy : FailedState s (s.respond .busy 0)
  | refused : FailedState s s.refuseTx
  | illegal : FailedState s s.illegal

theorem FailedState.eq_with_err_responses {s t : State} (h : FailedState s t) :
    t = { s with err := t.err, responses := t.responses } := by
  cases h <;> rfl

theorem ExecOutcome.ok_or_failed {i : Instr} {s t : State} (h : ExecOutcome i s t) :
    (∃ d, t.responses = s.responses ++ [⟨.ok, d⟩]) ∨ FailedState s t := by
  cases h
  case received h =>
    rcases h.ok_or_busy with hok | rfl
    · exact .inl hok
    · exact .inr .busy
  case txStartRefused | txByteRefused | dgTxStartRefused => exact .inr .refused
  case csrReadIllegal | csrWriteIllegal | bufReadIllegal => exact .inr .illegal
  all_goals exact .inl ⟨_, rfl⟩

theorem present_ok_or_failed {x : HostInput} {s t : State} (h : present x s = .next t) :
    (∃ d, t.responses = s.responses ++ [⟨.ok, d⟩]) ∨ FailedState s t := by
  rcases present_cases x s with ⟨i, e⟩ | e <;> rw [e] at h
  · exact (exec_next h).ok_or_failed
  · cases h
    exact .inr .illegal

/-- Settles O44: a step that is not answered `OK` leaves one of three states, which write `ERR` and the responses
alone. -/
theorem failedCommandChangesOnlyErr : Obligations.FailedCommandChangesOnlyErr := by
  intro x s t r h hr hst
  rcases present_ok_or_failed h with ⟨d, hok⟩ | hfailed
  · obtain rfl : ⟨.ok, d⟩ = r := List.singleton_inj.1 (List.append_cancel_left (hok.symm.trans hr))
    exact absurd rfl hst
  · exact hfailed.eq_with_err_responses

/-! ## The error flags -/

/-- A delivery raises `DG_SHORT` or nothing (43_datagram.md R180). -/
theorem deliveredState_err (s : State) :
    (deliveredState s).err = if s.rx.len.toNat < 3 then raiseFlag s.err .dgShort else s.err := rfl

/-- `ERR` afterwards is `ERR` before, or that with one flag raised (60_exceptions.md R239). -/
def RaisesAtMostOne (s t : State) : Prop := t.err = s.err ∨ ∃ f, t.err = raiseFlag s.err f

/-- A step that raises a flag under a condition, and nothing else. -/
theorem raisesAtMostOne_of_ite {s t : State} {c : Prop} [Decidable c] {f : ErrFlag}
    (h : t.err = if c then raiseFlag s.err f else s.err) : RaisesAtMostOne s t := by
  split at h
  · exact .inr ⟨f, h⟩
  · exact .inl h

theorem RxOutcome.raisesAtMostOne {b : Byte} {s t : State} (h : RxOutcome b s t) : RaisesAtMostOne s t := by
  cases h
  case badKind | overflow | mismatched => exact .inr ⟨_, rfl⟩
  case emptyDelivered | storedDelivered | matched => exact raisesAtMostOne_of_ite (deliveredState_err _)
  all_goals exact .inl rfl

/-- Only a write to `ERR` clears a flag (10_state.md R31); a start may raise `CKSUM_DOWNGRADE` (41_frame_tx.md R143). -/
theorem ExecOutcome.raisesAtMostOne_or_clears {i : Instr} {s t : State} (h : ExecOutcome i s t) :
    RaisesAtMostOne s t ∨ ∃ v, i = .csrWrite 0x02 v ∧ t.err = clearFlags s.err v := by
  cases h
  case received h => exact .inl h.raisesAtMostOne
  case txStart d _ | dgTxStart d _ _ => exact .inl (raisesAtMostOne_of_ite (c := d) (f := .cksumDowngrade) rfl)
  case txStartRefused | txByteRefused | dgTxStartRefused => exact .inl (.inr ⟨.txRefused, rfl⟩)
  case csrReadIllegal | csrWriteIllegal | bufReadIllegal => exact .inl (.inr ⟨.cmdErr, rfl⟩)
  case csrWriteErr v => exact .inr ⟨v, rfl, rfl⟩
  all_goals exact .inl (.inl rfl)

/-- What decodes to no instruction, an illegal word or a received byte, clears nothing. -/
theorem present_raisesAtMostOne_of_error {x : HostInput} {e : Rejection} {s t : State} (hd : decode x = .error e)
    (h : present x s = .next t) : RaisesAtMostOne s t := by
  cases x with
  | command w =>
    rw [present_command_of_error s hd] at h
    cases h
    exact .inr ⟨.cmdErr, rfl⟩
  | wireByte place b =>
    rw [present_wireByte_of_error s hd, exec_rxByte] at h
    exact (receiveByte_next h).raisesAtMostOne

/-- Settles O45: each rule raises at most one flag, and the one that clears flags is the write to `ERR`. -/
theorem atMostOneFlagIsRaised : Obligations.AtMostOneFlagIsRaised := by
  intro x s t h
  have hcases : RaisesAtMostOne s t ∨ ∃ v, decode x = .ok (.csrWrite 0x02 v) ∧ t.err = clearFlags s.err v := by
    cases hd : decode x with
    | error e => exact .inl (present_raisesAtMostOne_of_error hd h)
    | ok i =>
      rw [present_of_decode s hd] at h
      exact (exec_next h).raisesAtMostOne_or_clears.imp_right fun ⟨v, hi, hv⟩ => ⟨v, by rw [hi], hv⟩
  exact or_assoc.1 hcases

/-! ## `dlv_irq` -/

/-- A disabled receiver discards the byte and does nothing more (40_frame_rx.md R111). -/
theorem RxOutcome.eq_discarded_of_disabled {b : Byte} {s t : State} (h : RxOutcome b s t) (hen : s.rxEn = false) :
    t = s.event .discarded := by
  cases h
  case discarded => rfl
  all_goals simp_all

/-- A received byte makes a delivery pending only by delivering, which needs `RX_EN` (60_exceptions.md R240). -/
theorem RxOutcome.delivered_of_rise {b : Byte} {s t : State} (h : RxOutcome b s t) (hs : s.dlv.pending = false)
    (ht : t.dlv.pending = true) : s.rxEn = true ∧ t.responses = s.responses ++ [⟨.ok, 1⟩] := by
  have hne : t.dlv ≠ s.dlv := fun e => by simp [e, hs] at ht
  refine ⟨?_, h.latches_eq_or_delivered.resolve_left fun hkept => hne hkept.1⟩
  by_contra hen
  exact hne (by rw [h.eq_discarded_of_disabled (Bool.eq_false_of_not_eq_true hen), State.event_dlv])

/-- An instruction that carries no received byte never makes a delivery pending (60_exceptions.md R242). -/
theorem ExecOutcome.pending_of_pending {i : Instr} {s t : State} (h : ExecOutcome i s t) (hi : lineByte i = none)
    (ht : t.dlv.pending = true) : s.dlv.pending = true := by
  cases h
  case received hb _ => simp [hi] at hb
  case dlvAck | frmReset => cases ht
  all_goals exact ht

/-- While a delivery is pending no instruction changes what was delivered (R242). -/
theorem ExecOutcome.delivered_kept {i : Instr} {s t : State} (h : ExecOutcome i s t) (hp : s.dlv.pending = true) :
    t.dlv.len = s.dlv.len ∧ t.dlv.kind = s.dlv.kind ∧ t.dg = s.dg ∧ t.rxbuf = s.rxbuf := by
  cases hi : lineByte i with
  | none =>
    obtain ⟨⟨hlen, hkind, hdg⟩, hbuf⟩ := h.latches_and_rxbuf_eq hi
    exact ⟨hlen, hkind, hdg, hbuf⟩
  | some b =>
    obtain ⟨hdlv, hdg, hbuf⟩ := h.delivered_eq hp (by rintro rfl; cases hi) (by rintro rfl; cases hi)
    exact ⟨by rw [hdlv], by rw [hdlv], hdg, hbuf⟩

/-- Settles O46: the rise by the instruction's received byte, the fall by what keeps a pending delivery (R236, R240 to
R242). -/
theorem deliveriesDoNotNest : Obligations.DeliveriesDoNotNest := by
  intro i s t h
  have hout := exec_next h
  refine ⟨fun hs ht => ?_, fun hs ht => ?_, hout.delivered_kept⟩
  · cases hi : lineByte i with
    | none => exact absurd (hout.pending_of_pending hi ht) (Bool.eq_false_iff.1 hs)
    | some b =>
      rw [exec_of_lineByte s hi] at h
      exact ⟨⟨b, rfl⟩, (receiveByte_next h).delivered_of_rise hs ht⟩
  · by_contra hother
    obtain ⟨hack, hreset⟩ := not_or.1 hother
    obtain ⟨hdlv, -⟩ := hout.delivered_eq hs hack hreset
    exact absurd (hdlv ▸ hs : t.dlv.pending = true) (Bool.eq_false_iff.1 ht)

end Sys2Proof.Machine
end

section
/-! PROOF. Power-on reset (spec 70_reset_and_hazards.md): the reset values (O8). -/

namespace Sys2Proof.Machine

/-- No byte of `RXBUF` is written at power-on, whatever its address (20_memory.md R60). -/
theorem Memory.get_powerOn (p : Params) (a : Nat) : Memory.get (State.powerOn p).rxbuf a = none := by
  rw [State.powerOn_rxbuf, Memory.get_nil]

/-- Settles O8: each field through its component's value at power-on (the `State.powerOn_…` rules), the kind fields
shown by their wire byte, and `RXBUF` by `Memory.get_powerOn`. -/
theorem powerOnResetValues : Obligations.PowerOnResetValues := by
  refine ⟨rfl, ?_⟩
  rintro p s rfl
  have hkind : kindCode .none = 0x00 := rfl
  have hbuf := Memory.get_powerOn p
  simp only [State.powerOn_params, State.powerOn_rx, State.powerOn_dlv, State.powerOn_dg, State.powerOn_rxEn,
    State.powerOn_txEn, State.powerOn_err, State.powerOn_tx, State.powerOn_txw, hkind, hbuf, implies_true, and_self]

end Sys2Proof.Machine
end
